-- ==== Sys2Proof/Word.lean ====
section
/-! DEFINITION. The two unsigned widths of the CAS core (spec 00_scope.md rules R6 and R9). -/

namespace Sys2Proof

/-- A byte: the width of the data bus, of `a`, `x`, `y`, `sp` and of a memory location (R6, R9). -/
abbrev Byte := BitVec 8

/-- A word: the width of the address bus, of `pc` and of `internal` (R6, R9). -/
abbrev Word := BitVec 16

end Sys2Proof
end

