-- ==== Sys2Proof/Machine/Flags.lean ====
section
/-! DEFINITION. All the arithmetic the hardware performs (41_accumulator_ops.md R145). There are no flags, condition
codes or predicates (10_state.md R36): each operation gives its result and nothing else. -/

namespace Sys2Proof.Machine

/-- Bitwise AND of two bytes (R145 a). -/
def andResult (u v : Byte) : Byte := u &&& v

/-- `(v * 2) mod 256`; the bit shifted out is lost and no carry receives it (R145 b, R142). -/
def aslResult (v : Byte) : Byte := v <<< 1

/-- `(w + 1) mod 65536` (R145 c): 0xFFFF wraps to 0x0000 and nothing records it (R120, R172, C3). -/
def incWord (w : Word) : Word := w + 1#16

end Sys2Proof.Machine
end

