-- ==== Sys2Proof/Config.lean ====
section
/-! DEFINITION. The fixed parameters of 00_scope.md rule R6, and the one value the model chooses. -/

namespace Sys2Proof

/-- Address of the low byte of the reset vector (R6, R65). -/
def Config.vectorLo : Word := 0xFFFC#16

/-- Address of the high byte of the reset vector (R6, R65). -/
def Config.vectorHi : Word := 0xFFFD#16

/-- The value the reset action gives the stack pointer (R6, R42). -/
def Config.spReset : Byte := 0xFF#8

/-- The number of memory bytes, addresses 0x0000 to 0xFFFF (R6, R32). -/
def Config.memSize : Nat := 65536

/-- What an address that the memory list does not name reads as. DESIGN CHOICE, unsafe (log entry 1): the spec
leaves `IMAGE` open (D8); the bytes a claim relies on must be hypotheses of the claim. -/
def Config.unlistedByte : Byte := 0x00#8

end Sys2Proof
end

