-- ==== Sys2Proof/Machine/State.lean ====
section
/-! DEFINITION. The complete state of the reference system (10_state.md R20 to R44), its power-on value and its value
right after a reset cycle. -/

namespace Sys2Proof.Machine

/-- The memory array `mem` (R32) as (address, byte) pairs in canonical form (`Memory.wf`); an address without a pair
reads `Config.unlistedByte`. -/
abbrev Memory := List Host.Cell

/-- One pair of levels that the environment writes before the ticks of one simulation step (00_scope.md R7, `WAVE`). -/
structure Levels where
  /-- The level of the clock. -/
  clock : Bool
  /-- The level of reset-enable; false requests reset (R12). -/
  resetEn : Bool
deriving DecidableEq, Repr

/-- The signal nodes, one cell each (R23); the memory's `oe` pin is on `rwb` (D1, log entry 6). -/
@[ext]
structure Nodes where
  /-- `CLK`. -/
  clk : Bool
  /-- `RESET_EN`. -/
  resetEn : Bool
  /-- `DATA`. -/
  data : Byte
  /-- `ADDR`. -/
  addr : Word
  /-- `RWB`. -/
  rwb : Bool
  /-- `WE`. -/
  we : Bool
  /-- `CS`. -/
  cs : Bool
deriving DecidableEq, Repr

/-- The processor's cached pin state (R24). -/
@[ext]
structure Pins where
  /-- The clock level seen at the previous processor tick. -/
  clock : Bool
  /-- Reset-enable as sampled at the last rising edge. -/
  resetEn : Bool
  /-- The data latch. -/
  dataBus : Byte
  /-- true = read, false = write. -/
  rwb : Bool
  /-- The address the processor presents. -/
  addressBus : Word
deriving DecidableEq, Repr

/-- The six registers (R25). -/
@[ext]
structure Regs where
  /-- The accumulator (R26). -/
  a : Byte
  /-- Index register (R27). -/
  x : Byte
  /-- Index register (R27). -/
  y : Byte
  /-- Stack pointer (R28). -/
  sp : Byte
  /-- Program counter (R29). -/
  pc : Word
  /-- Scratch latch (R33). -/
  internal : Word
deriving DecidableEq, Repr

/-- The seven micro-op kinds (R31). -/
inductive MicroOp where
  /-- Low byte of the reset vector (R118). -/
  | rvLo
  /-- High byte of the reset vector (R119). -/
  | rvHi
  /-- Load the accumulator (R143). -/
  | ldA
  /-- AND into the accumulator (R144). -/
  | andA
  /-- Low address byte (R125). -/
  | latchLo
  /-- High address byte, then jump (R151). -/
  | latchHiJmp
  /-- High address byte, then store (R161). -/
  | latchHiSta
deriving DecidableEq, Repr

/-- The whole state (R20), and the levels the environment has still to write (R6 `WAVE`, log entry 3). -/
@[ext]
structure State where
  /-- The signal cells (R23). -/
  nodes : Nodes
  /-- The processor's pin cache (R24). -/
  pins : Pins
  /-- The processor's registers (R25). -/
  reg : Regs
  /-- The micro-op queue, front first (R30). -/
  queue : List MicroOp
  /-- The memory array (R32). -/
  mem : Memory
  /-- The level pairs the environment is going to write, one a simulation step, oldest first (the model's own field). -/
  wave : List Levels
deriving DecidableEq, Repr

/-- Reasons the machine stops with a fault. There is none: "every condition degrades to a well-defined internal state
transition" (60_exceptions.md R173), so the type has no constructor and no step can answer a fault. Safe: nothing the
spec allows is cut off. -/
inductive Fault
deriving DecidableEq, Repr

/-- Reasons the machine gives an instruction no meaning. -/
inductive Refusal where
  /-- Raised only by an arm of `exec` without a meaning; every arm of this model has one, so nothing raises it. Safe. -/
  | notModelled (mnemonic : String)
deriving DecidableEq, Repr

/-- The default power-on state with a given image: signals created at zero (R44), `CS` raised by the environment (R23,
R203 step 3), processor at the default `POWERON` (R43, D2; DESIGN CHOICE of the spec, log entry 2). -/
def State.powerOn (image : Memory) (wave : List Levels) : State where
  nodes := { clk := false, resetEn := false, data := 0, addr := 0, rwb := false, we := false, cs := true }
  pins := { clock := false, resetEn := false, dataBus := 0, rwb := true, addressBus := 0 }
  reg := { a := 0, x := 0, y := 0, sp := Config.spReset, pc := 0, internal := 0 }
  queue := []
  mem := image
  wave := wave

/-- The machine right after a reset cycle: the table of R42, after the whole simulation step of that cycle. `pc`, the
data latch and `DATA` are not fixed by R42; they have the values that the default power-on state, the empty image and
the reference waveform give (DESIGN CHOICE, log entry 2; the statement `ResetStateIsOneCycleFromPowerOn`). -/
def State.reset : State where
  nodes := { clk := true, resetEn := false, data := Config.unlistedByte, addr := Config.vectorLo, rwb := true,
             we := false, cs := true }
  pins := { clock := true, resetEn := false, dataBus := Config.unlistedByte, rwb := true,
            addressBus := Config.vectorLo }
  reg := { a := 0, x := 0, y := 0, sp := Config.spReset, pc := 0, internal := 0 }
  queue := [.rvLo, .rvHi]
  mem := []
  wave := []

end Sys2Proof.Machine
end

