-- ==== Sys2Proof/Machine/Memory.lean ====
section
/-! DEFINITION. Reading and writing one byte of the memory array, and its canonical form (10_state.md R32, R40). -/

namespace Sys2Proof.Machine

/-- Byte `a` of the array; an address without a pair holds the image byte of log entry 1. -/
def Memory.read : Memory → Nat → Byte
  | [], _ => Config.unlistedByte
  | (k, v) :: rest, a => if k = a then v else Memory.read rest a

/-- The list without any pair for address `a`. -/
def Memory.forget (m : Memory) (a : Nat) : Memory := m.filter (fun c => c.1 != a)

/-- Put a pair in its place in a list of rising addresses. -/
def Memory.place (a : Nat) (b : Byte) : Memory → Memory
  | [] => [(a, b)]
  | (k, v) :: rest => if a < k then (a, b) :: (k, v) :: rest else (k, v) :: Memory.place a b rest

/-- `mem[a] <- b` (R32): exactly one byte changes, and the canonical form is kept. -/
def Memory.write (m : Memory) (a : Nat) (b : Byte) : Memory :=
  if b = Config.unlistedByte then Memory.forget m a else Memory.place a b (Memory.forget m a)

/-- The canonical form: addresses strictly rising and inside the space (R40), and no pair that says what an unlisted
address reads anyway. -/
abbrev Memory.wf (m : Memory) : Prop :=
  m.Pairwise (fun c d => c.1 < d.1) ∧ ∀ c ∈ m, c.1 < Config.memSize ∧ c.2 ≠ Config.unlistedByte

end Sys2Proof.Machine
end

