-- ==== Sys2Proof/Syntax.lean ====
section
/-! DEFINITION. The instructions: one constructor per row of spec/opcode_table.json (30_encoding.md R95, R101). -/

namespace Sys2Proof

/-- The five instructions and the catch-all row for the 251 unrecognised opcode bytes (R95, R96). -/
inductive Instr where
  /-- `LDA #imm`, format IMM, opcode 0xA9 (R140). -/
  | ldaImm (imm : Byte)
  /-- `AND #imm`, format IMM, opcode 0x29 (R141). -/
  | andImm (imm : Byte)
  /-- `ASL A`, format ACC, opcode 0x0A (R142). -/
  | aslA
  /-- `JMP abs`, format ABS, opcode 0x4C (R150). -/
  | jmpAbs (addr : Word)
  /-- `STA abs`, format ABS, opcode 0x8D (R160). -/
  | staAbs (addr : Word)
  /-- Row `UNDEF`: an unrecognised opcode byte (R170). -/
  | undef (op : Byte)
deriving DecidableEq, Repr

end Sys2Proof
end

