-- ==== Sys2Proof/Decode.lean ====
section
/-! DEFINITION. Opcode bytes, operand assembly, the decoder (total on any bytes) and the encoder (30_encoding.md). -/

namespace Sys2Proof

/-- LDA #imm (R95). -/
def opLda : Byte := 0xA9#8
/-- AND #imm (R95). -/
def opAnd : Byte := 0x29#8
/-- ASL A (R95). -/
def opAsl : Byte := 0x0A#8
/-- JMP abs (R95). -/
def opJmp : Byte := 0x4C#8
/-- STA abs (R95). -/
def opSta : Byte := 0x8D#8

/-- The word `{h, l}` = `h * 256 + l` (00_scope.md R9; little-endian pairs, 20_memory.md R62). -/
def wordOf (hi lo : Byte) : Word := hi ++ lo

/-- `w[7:0]` (R9). -/
def lowByte (w : Word) : Byte := w.extractLsb' 0 8

/-- `w[15:8]` (R9). -/
def highByte (w : Word) : Byte := w.extractLsb' 8 8

/-- The address of the absolute form from its two operand bytes: `{byte 2, byte 1}`, nothing added (R93, R94,
43_store.md R164). -/
def absoluteAddress (byte1 byte2 : Byte) : Word := wordOf byte2 byte1

/-- The byte is one of the five opcodes with a meaning (R95). -/
def recognised (op : Byte) : Bool :=
  op == opLda || op == opAnd || op == opAsl || op == opJmp || op == opSta

/-- How many operand bytes follow an opcode byte (R90: formats ACC, IMM, ABS; an unrecognised byte has none). -/
def operandCount (op : Byte) : Nat :=
  if op = opLda then 1
  else if op = opAnd then 1
  else if op = opAsl then 0
  else if op = opJmp then 2
  else if op = opSta then 2
  else 0

/-- The instruction that an opcode byte and the two bytes after it make; a form that is shorter ignores the bytes it
does not have (R90 to R97). The five exact matches come first, `UNDEF` is what remains (R101). -/
def decodeThree (op b1 b2 : Byte) : Instr :=
  if op = opLda then .ldaImm b1
  else if op = opAnd then .andImm b1
  else if op = opAsl then .aslA
  else if op = opJmp then .jmpAbs (absoluteAddress b1 b2)
  else if op = opSta then .staAbs (absoluteAddress b1 b2)
  else .undef op

/-- Why the decoder of byte lists answers no instruction: the list ends too early. -/
inductive DecodeReject where
  /-- The list is empty. -/
  | noOpcode
  /-- The byte 1 that the opcode's format has is missing. -/
  | noOperandByte
  /-- Byte 2 of format ABS is missing. -/
  | noHighAddressByte
deriving DecidableEq, Repr

/-- The instruction at the head of a list of bytes in fetch order, and the bytes after it (R90, R97). -/
def decode : List Byte → Except DecodeReject (Instr × List Byte)
  | [] => .error .noOpcode
  | op :: rest =>
    match operandCount op, rest with
    | 0, r => .ok (decodeThree op 0 0, r)
    | 1, b1 :: r => .ok (decodeThree op b1 0, r)
    | _, b1 :: b2 :: r => .ok (decodeThree op b1 b2, r)
    | _, [_] => .error (if operandCount op = 1 then .noOperandByte else .noHighAddressByte)
    | _, [] => .error .noOperandByte

/-- The bytes of an instruction in fetch order, lowest address first (R90 to R95). -/
def encode : Instr → List Byte
  | .ldaImm imm => [opLda, imm]
  | .andImm imm => [opAnd, imm]
  | .aslA => [opAsl]
  | .jmpAbs addr => [opJmp, lowByte addr, highByte addr]
  | .staAbs addr => [opSta, lowByte addr, highByte addr]
  | .undef op => [op]

/-- Byte `n` of an instruction numbered as spec/opcode_table.json numbers it: bit 0 is the least significant bit of
byte 0; bits at or above `nbits` are 0. -/
def tableByte (nbits w n : Nat) : Byte := BitVec.ofNat 8 ((w % 2 ^ nbits) / 2 ^ (8 * n))

/-- What the decoder reads from the table word `w` of `nbits` bits. -/
def decodeTableWord (nbits w : Nat) : Option Instr :=
  match decode [tableByte nbits w 0, tableByte nbits w 1, tableByte nbits w 2] with
  | .ok (i, _) => some i
  | .error _ => none

end Sys2Proof
end

