-- ==== Sys2Proof/Machine/Operands.lean ====
section
/-! DEFINITION. The byte lanes by which the two operand bytes of the absolute form, and the two bytes of the reset
vector, reach a word register (30_encoding.md R93, R94). The immediate form is the operand byte itself (R92), the
accumulator form is `reg.a` (R91), and the address of the absolute form is `absoluteAddress` of Decode.lean. -/

namespace Sys2Proof.Machine

/-- `w[7:0] <- b`; the high byte stays (00_scope.md R9, D5, log entry 9). -/
def setLow (w : Word) (b : Byte) : Word := wordOf (highByte w) b

/-- `w[15:8] <- b`; the low byte stays (R9, D5, log entry 9). -/
def setHigh (w : Word) (b : Byte) : Word := wordOf b (lowByte w)

end Sys2Proof.Machine
end

