-- ==== Sys2Proof/Machine/Ops.lean ====
section
/-! DEFINITION. The shared operations: the ticks of the three components, one simulation step, the reset action (the
only trap-like action, 60_exceptions.md R177) and the pieces of an engine cycle. What the engine does in its cycle is a
parameter here; Engine.lean supplies it. -/

namespace Sys2Proof.Machine

/-! ### Gate and memory -/

/-- The gate's function of its two inputs (20_memory.md R55). -/
def gateOut (in0 in1 : Bool) : Bool := !(in0 && in1)

/-- The gate's tick in the reference wiring: both inputs on `RWB`, output on `WE` (R55, R56). -/
def gateTick (s : State) : State := { s with nodes := { s.nodes with we := gateOut s.nodes.rwb s.nodes.rwb } }

/-- The memory component's tick as a function of its pins: the new values of the `data` node and of the array (R51).
true means enabled for all three control pins (R52, C1), read comes before write (R53), an idle memory leaves the node
as it was (R54). -/
def memoryAction (cs oe we : Bool) (addr : Word) (data : Byte) (mem : Memory) : Byte × Memory :=
  if cs = false then (data, mem)
  else if oe = true then (mem.read addr.toNat, mem)
  else if we = true then (data, mem.write addr.toNat data)
  else (data, mem)

/-- The memory's tick in the reference wiring: `oe` on `RWB`, `we` on `WE` (R51, R56). -/
def memoryTick (s : State) : State :=
  { s with
    nodes := { s.nodes with
      data := (memoryAction s.nodes.cs s.nodes.rwb s.nodes.we s.nodes.addr s.nodes.data s.mem).1 }
    mem := (memoryAction s.nodes.cs s.nodes.rwb s.nodes.we s.nodes.addr s.nodes.data s.mem).2 }

/-! ### Processor tick -/

/-- What a rising edge samples before the engine runs: reset-enable, and the data bus only if the cached read/write-bar
is "read" (40_sequencer.md R113). -/
def sampleInputs (s : State) : State :=
  { s with pins := { s.pins with
      resetEn := s.nodes.resetEn
      dataBus := if s.pins.rwb then s.nodes.data else s.pins.dataBus } }

/-- The part of a processor tick before the write-back (R110): nothing on a same-level duplicate (R111), only
`pins.clock` on a falling edge (R112), sampling and one engine cycle on a rising edge (R113). -/
def processorEdge (engine : State → State) (s : State) : State :=
  if s.nodes.clk = s.pins.clock then s
  else
    let rising := !s.pins.clock && s.nodes.clk
    let s1 := { s with pins := { s.pins with clock := s.nodes.clk } }
    if rising then engine (sampleInputs s1) else s1

/-- The write-back of every processor tick: address, data only when writing, read/write-bar (R114, C2). -/
def writeBack (s : State) : State :=
  { s with nodes := { s.nodes with
      addr := s.pins.addressBus
      data := if s.pins.rwb then s.nodes.data else s.pins.dataBus
      rwb := s.pins.rwb } }

/-- One tick of the processor component (R110). -/
def processorTick (engine : State → State) (s : State) : State := writeBack (processorEdge engine s)

/-! ### One simulation step -/

/-- The environment writes the two levels of a step (00_scope.md R7). -/
def drive (lv : Levels) (s : State) : State :=
  { s with nodes := { s.nodes with clk := lv.clock, resetEn := lv.resetEn } }

/-- One simulation step: the environment, then Processor, Gate, Memory, in that order (R7, 20_memory.md R57). -/
def simStepWith (engine : State → State) (lv : Levels) (s : State) : State :=
  memoryTick (gateTick (processorTick engine (drive lv s)))

/-! ### Pieces of an engine cycle -/

/-- `pins.rwb <- true`, first in every engine cycle (R116, D3, log entry 7). -/
def forceRead (s : State) : State := { s with pins := { s.pins with rwb := true } }

/-- `pop_front(queue)`, without running the entry (R10, R115). -/
def popFront (s : State) : State := { s with queue := s.queue.tail }

/-- `queue <- q`. -/
def setQueue (q : List MicroOp) (s : State) : State := { s with queue := q }

/-- The byte that the data bus holds for the engine of this cycle. -/
def setLatch (b : Byte) (s : State) : State := { s with pins := { s.pins with dataBus := b } }

/-- Advance and address: `IncAddr()` (R120). -/
def incAddr (s : State) : State :=
  { s with
    reg := { s.reg with pc := incWord s.reg.pc }
    pins := { s.pins with addressBus := incWord s.reg.pc } }

/-- `ApplyRegisterReset()` (10_state.md R42); `pc` is not written (D4, C4, log entry 8). -/
def applyRegisterReset (s : State) : State :=
  { s with reg := { s.reg with a := 0, x := 0, y := 0, internal := 0, sp := Config.spReset } }

/-- Taking the one exception there is, from either cause: `ResetAction()` (R117, 60_exceptions.md R177). Nothing is
saved, and there is no return from it (R179). -/
def resetAction (s : State) : State :=
  let s1 := applyRegisterReset s
  { s1 with queue := [.rvLo, .rvHi], pins := { s1.pins with addressBus := Config.vectorLo } }

/-- Micro-op `RV_LO` (R118). -/
def microRvLo (s : State) : State :=
  { s with
    reg := { s.reg with pc := setLow s.reg.pc s.pins.dataBus }
    pins := { s.pins with addressBus := Config.vectorHi } }

/-- Micro-op `RV_HI` (R119). -/
def microRvHi (s : State) : State :=
  { s with
    reg := { s.reg with pc := setHigh s.reg.pc s.pins.dataBus }
    pins := { s.pins with addressBus := setHigh s.reg.pc s.pins.dataBus } }

/-- Micro-op `LATCH_LO`, the first continuation of JMP and of STA (R125, D6, log entry 10). -/
def microLatchLo (s : State) : State :=
  incAddr { s with reg := { s.reg with internal := setLow s.reg.internal s.pins.dataBus } }

/-! ### Clock cycles of the running reference waveform -/

/-- The levels of the step with the clock low: reset-enable held true (70_reset_and_hazards.md R203, R204). -/
def runLow : Levels := { clock := false, resetEn := true }

/-- The levels of the step with the clock high. -/
def runHigh : Levels := { clock := true, resetEn := true }

/-- The simulation step in which the clock is low: the engine does not run in it (R111, R112), whatever it is. -/
def lowStep (s : State) : State := simStepWith id runLow s

/-- One clock cycle of an instruction (00_scope.md R8, R217): a step with the clock low, then a step with the clock
high in which the engine cycle is `act`. -/
def busCycle (act : State → State) (s : State) : State :=
  simStepWith (fun t => act (forceRead t)) runHigh (lowStep s)

/-- The same clock cycle with byte `b` of the instruction in the data latch when the engine runs, as the cycle listings
of the instruction rules say it ("pins.data_bus = …"). Where `b` stands at the address the bus shows, this is
`busCycle act` (log entry 5). -/
def suppliedCycle (b : Byte) (act : State → State) (s : State) : State :=
  busCycle (fun t => act (setLatch b t)) s

end Sys2Proof.Machine
end

