-- ==== Sys2Proof/Machine/Accumulator.lean ====
section
/-! DEFINITION. The accumulator instructions LDA #imm, AND #imm and ASL A (41_accumulator_ops.md): decode cycle,
micro-op and meaning of each. -/

namespace Sys2Proof.Machine

/-- Decode cycle of 0xA9 (40_sequencer.md R121). -/
def decodeLda (s : State) : State := incAddr (setQueue [.ldA] s)

/-- Micro-op `LD_A` (R143). -/
def microLdA (s : State) : State := incAddr { s with reg := { s.reg with a := s.pins.dataBus } }

/-- LDA #imm, two cycles (R140). -/
def execLdaImm (imm : Byte) (s : State) : Host.Outcome State Fault Refusal :=
  .next (suppliedCycle imm (fun t => microLdA (popFront t)) (suppliedCycle opLda decodeLda s))

/-- Decode cycle of 0x29 (R121). -/
def decodeAnd (s : State) : State := incAddr (setQueue [.andA] s)

/-- Micro-op `AND_A` (R144). -/
def microAndA (s : State) : State :=
  incAddr { s with reg := { s.reg with a := andResult s.reg.a s.pins.dataBus } }

/-- AND #imm, two cycles (R141). -/
def execAndImm (imm : Byte) (s : State) : Host.Outcome State Fault Refusal :=
  .next (suppliedCycle imm (fun t => microAndA (popFront t)) (suppliedCycle opAnd decodeAnd s))

/-- Decode cycle of 0x0A, which is the whole instruction: no continuation is queued (R121, R142). -/
def decodeAsl (s : State) : State := incAddr { s with reg := { s.reg with a := aslResult s.reg.a } }

/-- ASL A, one cycle (R142). -/
def execAslA (s : State) : Host.Outcome State Fault Refusal := .next (suppliedCycle opAsl decodeAsl s)

end Sys2Proof.Machine
end

