-- ==== Sys2Proof/Machine/Jump.lean ====
section
/-! DEFINITION. Control transfer: JMP abs (42_jump.md). -/

namespace Sys2Proof.Machine

/-- Decode cycle of 0x4C (40_sequencer.md R121, D6, log entry 10). -/
def decodeJmp (s : State) : State := incAddr (setQueue [.latchLo, .latchHiJmp] s)

/-- Micro-op `LATCH_HI_JMP` (R151): the destination is exact, nothing is incremented. -/
def microLatchHiJmp (s : State) : State :=
  let target := setHigh s.reg.internal s.pins.dataBus
  { s with
    reg := { s.reg with internal := target, pc := target }
    pins := { s.pins with addressBus := target } }

/-- JMP abs, three cycles, low address byte first (R150). -/
def execJmpAbs (addr : Word) (s : State) : Host.Outcome State Fault Refusal :=
  .next (suppliedCycle (highByte addr) (fun t => microLatchHiJmp (popFront t))
    (suppliedCycle (lowByte addr) (fun t => microLatchLo (popFront t)) (suppliedCycle opJmp decodeJmp s)))

end Sys2Proof.Machine
end

