-- ==== Sys2Proof/Machine/Store.lean ====
section
/-! DEFINITION. The store: STA abs (43_store.md). -/

namespace Sys2Proof.Machine

/-- Decode cycle of 0x8D (40_sequencer.md R121, D6, log entry 10). -/
def decodeSta (s : State) : State := incAddr (setQueue [.latchLo, .latchHiSta] s)

/-- Micro-op `LATCH_HI_STA` (R161): the write cycle. The high byte is taken from the latch before the latch receives
the accumulator; `pc` is incremented and not addressed. -/
def microLatchHiSta (s : State) : State :=
  let target := setHigh s.reg.internal s.pins.dataBus
  { s with
    reg := { s.reg with internal := target, pc := incWord s.reg.pc }
    pins := { s.pins with addressBus := target, dataBus := s.reg.a, rwb := false } }

/-- STA abs, three cycles; the memory takes the byte in the simulation step of the third rising edge (R160, R162). The
next cycle decodes the stored byte, which `fetch` reads from the latch (R163, log entry 11). -/
def execStaAbs (addr : Word) (s : State) : Host.Outcome State Fault Refusal :=
  .next (suppliedCycle (highByte addr) (fun t => microLatchHiSta (popFront t))
    (suppliedCycle (lowByte addr) (fun t => microLatchLo (popFront t)) (suppliedCycle opSta decodeSta s)))

end Sys2Proof.Machine
end

