-- ==== Sys2Proof/Machine/Undefined.lean ====
section
/-! DEFINITION. The unrecognised opcode: row UNDEF (60_exceptions.md R170). -/

namespace Sys2Proof.Machine

/-- Decode cycle of any of the 251 other bytes: the reset action, in that same cycle (40_sequencer.md R121, R170). -/
def decodeUndef (s : State) : State := resetAction s

/-- An unrecognised opcode: the fallback cycle and the two vector cycles, to the next instruction boundary (R170 cycles
1 to 3, R201, R216; log entry 12). The vector bytes come over the bus. -/
def execUndef (op : Byte) (s : State) : Host.Outcome State Fault Refusal :=
  .next (busCycle (fun t => microRvHi (popFront t))
    (busCycle (fun t => microRvLo (popFront t)) (suppliedCycle op decodeUndef s)))

end Sys2Proof.Machine
end

