-- ==== Sys2Proof/Machine/Dispatch.lean ====
section
/-! DEFINITION. The meaning of every instruction, one arm per constructor. -/

namespace Sys2Proof.Machine

def exec (i : Instr) (s : State) : Host.Outcome State Fault Refusal :=
  match i with
  | .ldaImm imm => Sys2Proof.Machine.execLdaImm imm s
  | .andImm imm => Sys2Proof.Machine.execAndImm imm s
  | .aslA => Sys2Proof.Machine.execAslA s
  | .jmpAbs addr => Sys2Proof.Machine.execJmpAbs addr s
  | .staAbs addr => Sys2Proof.Machine.execStaAbs addr s
  | .undef op => Sys2Proof.Machine.execUndef op s

end Sys2Proof.Machine
end

