-- ==== Sys2Proof/Machine/Engine.lean ====
section
/-! DEFINITION. The instruction engine: decode dispatch, micro-op dispatch, the engine cycle, a simulation step of the
whole system, and runs of clock cycles (40_sequencer.md R115 to R127). -/

namespace Sys2Proof.Machine

/-- `Decode(op)` (R121): the five exact matches, then the fallback. -/
def decodeOpcode (op : Byte) (s : State) : State :=
  if op = opLda then decodeLda s
  else if op = opAnd then decodeAnd s
  else if op = opAsl then decodeAsl s
  else if op = opJmp then decodeJmp s
  else if op = opSta then decodeSta s
  else decodeUndef s

/-- Run one micro-op that has been taken from the queue (10_state.md R31). -/
def runMicroOp : MicroOp → State → State
  | .rvLo, s => microRvLo s
  | .rvHi, s => microRvHi s
  | .ldA, s => microLdA s
  | .andA, s => microAndA s
  | .latchLo, s => microLatchLo s
  | .latchHiJmp, s => microLatchHiJmp s
  | .latchHiSta, s => microLatchHiSta s

/-- The engine's choice among its three families, in the order of priority (R115, 60_exceptions.md R176). -/
def engineFamily (s : State) : State :=
  if s.pins.resetEn = false then resetAction s
  else
    match s.queue with
    | m :: _ => runMicroOp m (popFront s)
    | [] => decodeOpcode s.pins.dataBus s

/-- One engine cycle (R115): read/write-bar to "read" first (R116), then one of the three families. -/
def engineCycle (s : State) : State := engineFamily (forceRead s)

/-- One simulation step of the reference system (00_scope.md R7). -/
def simStep (lv : Levels) (s : State) : State := simStepWith engineCycle lv s

/-- The simulation steps of a list of level pairs, in order (`WAVE`, R7). -/
def runWave : List Levels → State → State
  | [], s => s
  | lv :: rest, s => runWave rest (simStep lv s)

/-- The level pairs of one clock cycle of the reference waveform, with the given reset-enable (R204). -/
def cycleLevels (resetEn : Bool) : List Levels :=
  [{ clock := false, resetEn := resetEn }, { clock := true, resetEn := resetEn }]

/-- One clock cycle of the reference waveform (R8, R204, R217). -/
def clockCycle (resetEn : Bool) (s : State) : State := runWave (cycleLevels resetEn) s

/-- `n` clock cycles with reset-enable held true. -/
def runCycles : Nat → State → State
  | 0, s => s
  | n + 1, s => runCycles n (clockCycle true s)

/-- How many rising edges a processor that last saw clock level `c` sees in a list of level pairs: the number of engine
cycles (R8, R111 to R113). -/
def risingEdges : Bool → List Levels → Nat
  | _, [] => 0
  | c, lv :: rest => (if c = false && lv.clock = true then 1 else 0) + risingEdges lv.clock rest

/-- The level pairs of `n` clock cycles with reset-enable true (R204). -/
def runningWave : Nat → List Levels
  | 0 => []
  | n + 1 => cycleLevels true ++ runningWave n

/-- Run the micro-ops that are owed until the queue is empty, one a cycle (R123, R124). -/
def drainQueue (s : State) : State := runCycles s.queue.length s

/-- Clock cycles from the decode cycle of an instruction to the cycle that empties the queue (R216). -/
def cycleCount : Instr → Nat
  | .ldaImm _ => 2
  | .andImm _ => 2
  | .aslA => 1
  | .jmpAbs _ => 3
  | .staAbs _ => 3
  | .undef _ => 3

end Sys2Proof.Machine
end

