-- ==== Sys2Proof/Machine/Fetch.lean ====
section
/-! DEFINITION. Which bytes the next instruction of a machine at an instruction boundary is made of (30_encoding.md R98,
40_sequencer.md R113, R126). -/

namespace Sys2Proof.Machine

/-- The byte the engine will find in its latch at the next rising edge, with the clock already low: the bus when
reading; the latch itself in the cycle after a write cycle (R113, R126). -/
def opcodeByte (s : State) : Byte := if s.pins.rwb then s.nodes.data else s.pins.dataBus

/-- The byte a read of address `a` brings: what the memory drives, or what the node keeps when the memory is not
selected (20_memory.md R51, R54, R60; 70_reset_and_hazards.md R212). -/
def busRead (s : State) (a : Word) : Byte := if s.nodes.cs then s.mem.read a.toNat else s.nodes.data

/-- The next instruction at an instruction boundary. The bytes are taken after the low half of the coming cycle, in
which a write cycle is still held. The operands are at `pc + 1` and `pc + 2` (D6), also after a store, where the byte
at `pc` is skipped (R163). -/
def fetch (s : State) : Instr :=
  let s1 := lowStep s
  decodeThree (opcodeByte s1) (busRead s1 (incWord s.reg.pc)) (busRead s1 (incWord (incWord s.reg.pc)))

/-- Place the first three bytes of a table word at `pc` and make the address bus show `pc` at an instruction boundary
of the running machine: nothing queued, reading, selected, no levels pending (log entry 14). -/
def placeWord (s : State) (nbits w : Nat) : State :=
  let p := s.reg.pc
  let p1 := incWord p
  { s with
    mem := ((s.mem.write p.toNat (tableByte nbits w 0)).write p1.toNat (tableByte nbits w 1)).write
      (incWord p1).toNat (tableByte nbits w 2)
    pins := { s.pins with addressBus := p, rwb := true }
    nodes := { s.nodes with cs := true }
    queue := []
    wave := [] }

end Sys2Proof.Machine
end

