-- ==== Sys2Proof/Machine/Step.lean ====
section
/-! DEFINITION. One step of the machine, and the placing of a word where the next step fetches. -/

namespace Sys2Proof.Machine

/-- One step. With a level pair pending: one simulation step with it (00_scope.md R7). With none pending the reference
waveform runs with reset-enable true (log entry 3) to the next instruction boundary (R124, log entry 4): the owed
micro-ops if there are any, else the next instruction, whole. -/
def step (s : State) : Host.Outcome State Fault Refusal :=
  match s.wave with
  | lv :: rest => .next (simStep lv { s with wave := rest })
  | [] =>
    match s.queue with
    | _ :: _ => .next (drainQueue s)
    | [] => exec (fetch s) s

/-- `s` with the table word `w` of `nbits` bits where the next step fetches (log entry 14). -/
def State.withFetchWord (s : State) (nbits w : Nat) : State := placeWord s nbits w

end Sys2Proof.Machine
end

