-- ==== Sys2Proof/Safety.lean ====
section
/-! DEFINITION. What holds of the machine between steps: the invariants claims are stated with, and what counts as a
step that keeps the program's registers. -/

namespace Sys2Proof.Machine

/-- The nodes show the settled processor, and the data bus agrees with the memory at the address shown: driven while
reading, stored while writing (40_sequencer.md R114, 20_memory.md R55, R59, R72). True after every simulation step. -/
abbrev BusSettled (s : State) : Prop :=
  s.nodes.clk = s.pins.clock ∧ s.nodes.addr = s.pins.addressBus ∧ s.nodes.rwb = s.pins.rwb
    ∧ s.nodes.we = (!s.pins.rwb)
    ∧ (s.pins.rwb = false → s.nodes.data = s.pins.dataBus)
    ∧ (s.nodes.cs = true → s.mem.read s.pins.addressBus.toNat = s.nodes.data)

/-- A write cycle that is still held has already stored its byte (43_store.md R162): the low half of the next cycle
stores the same byte again and changes nothing (20_memory.md R61, R64). -/
abbrev WriteDone (s : State) : Prop :=
  s.pins.rwb = false → s.nodes.cs = true → s.mem.read s.pins.addressBus.toNat = s.pins.dataBus

/-- The address the sequencer must be showing for the queue it has (40_sequencer.md R122, R127); none for a queue that
never occurs (10_state.md R31). -/
def expectedAddress (s : State) : Option Word :=
  match s.queue with
  | [] => some (if s.pins.rwb then s.reg.pc else s.reg.internal)
  | [.rvLo, .rvHi] => some Config.vectorLo
  | [.rvHi] => some Config.vectorHi
  | [.ldA] => some s.reg.pc
  | [.andA] => some s.reg.pc
  | [.latchLo, .latchHiJmp] => some s.reg.pc
  | [.latchHiJmp] => some s.reg.pc
  | [.latchLo, .latchHiSta] => some s.reg.pc
  | [.latchHiSta] => some s.reg.pc
  | _ => none

/-- The queue is one of the nine of R31, the address bus shows what that queue wants next (R122), and the pin says
"write" only at the boundary after a store, with the accumulator in the latch (R116, R161, R163). -/
abbrev SequencerConsistent (s : State) : Prop :=
  expectedAddress s = some s.pins.addressBus
    ∧ (s.pins.rwb = false → s.queue = [] ∧ s.pins.dataBus = s.reg.a)

/-- `x`, `y` and `sp` hold their reset values (10_state.md R27, R28): after a reset cycle nothing changes them. -/
abbrev IndexAtReset (s : State) : Prop := s.reg.x = 0 ∧ s.reg.y = 0 ∧ s.reg.sp = Config.spReset

/-- The machine is at an instruction boundary with the reference waveform running (40_sequencer.md R124). -/
abbrev AtBoundary (s : State) : Prop := s.wave = [] ∧ s.queue = []

/-- A boundary at which the next opcode comes from memory at `pc` (10_state.md R29): reading, selected, addressed. -/
abbrev FetchesAtPc (s : State) : Prop :=
  AtBoundary s ∧ s.pins.rwb = true ∧ s.nodes.cs = true ∧ s.pins.addressBus = s.reg.pc

/-- A safe step keeps the program's registers: it is at a boundary and the next opcode is one of the five, so the
fallback of R170 is not taken (93_implementation_defined.md U1). -/
abbrev NoFallbackNext (s : State) : Prop := AtBoundary s ∧ ∀ op, fetch s ≠ .undef op

/-- Every byte of memory reads the same in both states. -/
abbrev SameMemory (s t : State) : Prop := ∀ b : Nat, t.mem.read b = s.mem.read b

/-- A state without what its index registers and stack pointer hold (10_state.md R27, R28). -/
def withoutIndex (s : State) : State := { s with reg := { s.reg with x := 0, y := 0, sp := 0 } }

/-- A state without what its scratch latch holds (10_state.md R33). -/
def withoutScratch (s : State) : State := { s with reg := { s.reg with internal := 0 } }

end Sys2Proof.Machine
end

