-- ==== Sys2Proof/WellFormed.lean ====
section
/-! DEFINITION. Which terms of `Instr` are instructions of the table (30_encoding.md R95, R96, R101). -/

namespace Sys2Proof

/-- Every immediate and every absolute address is legal (R92, R93); the `UNDEF` row stands only for a byte that is
none of the five opcodes (R96, R101). -/
def Instr.wf : Instr → Bool
  | .ldaImm _ => true
  | .andImm _ => true
  | .aslA => true
  | .jmpAbs _ => true
  | .staAbs _ => true
  | .undef op => op != 0xA9#8 && op != 0x29#8 && op != 0x0A#8 && op != 0x4C#8 && op != 0x8D#8

end Sys2Proof
end

