-- ==== Sys2Proof/Certificates/Slice0/Obligations.lean ====
section
/-! DEFINITION. The statements for the provers. Every docstring names the rule of spec/ the statement formalises, and
says where a clause rests on a choice or an inference of the spec or of the model. -/

open Sys2Proof Sys2Proof.Machine

/-! ### Encoding -/

/-- Decode and encode agree (30_encoding.md R90 to R97): the bytes of every well-formed instruction, whatever follows
them, decode to that instruction and leave what follows. -/
def Obligations.DecodeReadsWhatEncodeWrites : Prop :=
  ∀ (i : Instr) (rest : List Byte), i.wf = true → decode (encode i ++ rest) = .ok (i, rest)

/-- The other direction: whatever bytes decode to is well-formed, and its encoding is the bytes that were consumed. -/
def Obligations.DecodedBytesEncodeBack : Prop :=
  ∀ (bytes rest : List Byte) (i : Instr), decode bytes = .ok (i, rest) → i.wf = true ∧ encode i ++ rest = bytes

/-- Words written out from the encodings of R95, R99 and 95_test_vectors.md P1, V60, V80 decode to what they stand
for. -/
def Obligations.WrittenOutWordsDecode : Prop :=
  decode [0b10101001#8, 0xAB#8] = .ok (.ldaImm 0xAB#8, []) ∧
  decode [0b00101001#8, 0xA0#8] = .ok (.andImm 0xA0#8, []) ∧
  decode [0b00001010#8] = .ok (.aslA, []) ∧
  decode [0b01001100#8, 0x02#8, 0x80#8] = .ok (.jmpAbs 0x8002#16, []) ∧
  decode [0b10001101#8, 0x00#8, 0x01#8] = .ok (.staAbs 0x0100#16, []) ∧
  decode [0xEA#8] = .ok (.undef 0xEA#8, [])

/-- The 251 other byte values (30_encoding.md R96, 60_exceptions.md R170): a byte decodes to `UNDEF`, one byte long,
exactly when it is none of the five opcodes, and exactly then the engine's decode of it is the reset action in every
state. -/
def Obligations.OtherBytesAreUnrecognised : Prop :=
  ∀ (op : Byte) (rest : List Byte),
    ((op ≠ 0xA9#8 ∧ op ≠ 0x29#8 ∧ op ≠ 0x0A#8 ∧ op ≠ 0x4C#8 ∧ op ≠ 0x8D#8) ↔
      decode (op :: rest) = .ok (.undef op, rest)) ∧
    ((op ≠ 0xA9#8 ∧ op ≠ 0x29#8 ∧ op ≠ 0x0A#8 ∧ op ≠ 0x4C#8 ∧ op ≠ 0x8D#8) ↔
      ∀ s : State, decodeOpcode op s = resetAction s)

/-! ### The components -/

/-- 20_memory.md R55: the gate's truth table, and its tick in the reference wiring, where both inputs are `RWB` and the
output is `WE`; the previous output has no part in it. -/
def Obligations.GateTickIsNand : Prop :=
  gateOut false false = true ∧ gateOut false true = true ∧ gateOut true false = true ∧ gateOut true true = false ∧
  ∀ s : State, gateTick s = { s with nodes := { s.nodes with we := !(s.nodes.rwb && s.nodes.rwb) } }

/-- 20_memory.md R51, for every value of the three control pins: not selected, nothing; read enabled, the byte of the
array goes to the data node and the array stays; write enabled and read not, the data node's byte is stored at the
address and nowhere else; neither, nothing. -/
def Obligations.MemoryTickTable : Prop :=
  ∀ (addr : Word) (data : Byte) (mem : Memory),
    (∀ oe we, memoryAction false oe we addr data mem = (data, mem)) ∧
    (∀ we, memoryAction true true we addr data mem = (mem.read addr.toNat, mem)) ∧
    (memoryAction true false true addr data mem).1 = data ∧
    (memoryAction true false true addr data mem).2.read addr.toNat = data ∧
    (∀ b : Nat, b ≠ addr.toNat → (memoryAction true false true addr data mem).2.read b = mem.read b) ∧
    memoryAction true false false addr data mem = (data, mem)

/-- The memory's tick in the reference wiring (20_memory.md R51, R56): the five pins are the nodes `CS`, `RWB`, `WE`,
`ADDR` and `DATA`, and nothing but `DATA` and the array changes. That `oe` is on `RWB` is the spec's decision D1 (log
entry 6). -/
def Obligations.MemoryTickFollowsTheWiring : Prop :=
  ∀ s : State,
    memoryTick s =
      { s with nodes := { s.nodes with data := (memoryTick s).nodes.data }, mem := (memoryTick s).mem } ∧
    ((memoryTick s).nodes.data, (memoryTick s).mem) =
      memoryAction s.nodes.cs s.nodes.rwb s.nodes.we s.nodes.addr s.nodes.data s.mem

/-- 40_sequencer.md R111: a sample of the clock level last seen changes nothing in `pins`, `reg` and `queue`; only the
write-back happens. -/
def Obligations.DuplicateSampleOnlyWritesBack : Prop :=
  ∀ (lv : Levels) (s : State), lv.clock = s.pins.clock →
    processorTick engineCycle (drive lv s) = writeBack (drive lv s) ∧
    (processorTick engineCycle (drive lv s)).pins = s.pins ∧
    (processorTick engineCycle (drive lv s)).reg = s.reg ∧
    (processorTick engineCycle (drive lv s)).queue = s.queue

/-- 40_sequencer.md R112: on a falling edge `pins.clock` becomes false (an inference the spec marks as its own, from
R111), nothing else in `pins`, `reg` or `queue` changes, and the write-back happens. -/
def Obligations.FallingEdgeOnlyMovesTheClockLatch : Prop :=
  ∀ (lv : Levels) (s : State), s.pins.clock = true → lv.clock = false →
    processorTick engineCycle (drive lv s) =
      writeBack { drive lv s with pins := { s.pins with clock := false } } ∧
    (processorTick engineCycle (drive lv s)).pins = { s.pins with clock := false } ∧
    (processorTick engineCycle (drive lv s)).reg = s.reg ∧
    (processorTick engineCycle (drive lv s)).queue = s.queue

/-- 40_sequencer.md R113: on a rising edge reset-enable is sampled, then the data bus if the pin left by the previous
cycle says "read", then the engine runs one cycle; on any other tick the sampled reset-enable stays (the spec marks
this last consequence as its own inference, from R110). -/
def Obligations.RisingEdgeSamplesThenRunsTheEngine : Prop :=
  (∀ (lv : Levels) (s : State), s.pins.clock = false → lv.clock = true →
    processorTick engineCycle (drive lv s) =
      writeBack (engineCycle { drive lv s with pins :=
        { s.pins with
          clock := true
          resetEn := lv.resetEn
          dataBus := if s.pins.rwb = true then s.nodes.data else s.pins.dataBus } })) ∧
  (∀ (lv : Levels) (s : State), ¬(s.pins.clock = false ∧ lv.clock = true) →
    (processorTick engineCycle (drive lv s)).pins.resetEn = s.pins.resetEn)

/-- 40_sequencer.md R114: after every processor tick the address and read/write-bar nodes show the pins; the data node
shows the latch when the pin says "write" and is not written when it says "read". -/
def Obligations.WriteBackOnEveryTick : Prop :=
  ∀ (lv : Levels) (s : State),
    (processorTick engineCycle (drive lv s)).nodes.addr =
      (processorTick engineCycle (drive lv s)).pins.addressBus ∧
    (processorTick engineCycle (drive lv s)).nodes.rwb = (processorTick engineCycle (drive lv s)).pins.rwb ∧
    ((processorTick engineCycle (drive lv s)).pins.rwb = false →
      (processorTick engineCycle (drive lv s)).nodes.data =
        (processorTick engineCycle (drive lv s)).pins.dataBus) ∧
    ((processorTick engineCycle (drive lv s)).pins.rwb = true →
      (processorTick engineCycle (drive lv s)).nodes.data = s.nodes.data)

/-! ### The engine and its micro-ops -/

/-- 40_sequencer.md R115: exactly one of the three families runs, in this order: reset, the front micro-op, decode; the
pin is at "read" before any of them (before the reset family by the spec's decision D3, log entry 7). -/
def Obligations.EnginePriority : Prop :=
  ∀ s : State,
    (s.pins.resetEn = false → engineCycle s = resetAction { s with pins := { s.pins with rwb := true } }) ∧
    (∀ m q, s.pins.resetEn = true → s.queue = m :: q →
      engineCycle s = runMicroOp m { s with pins := { s.pins with rwb := true }, queue := q }) ∧
    (s.pins.resetEn = true → s.queue = [] →
      engineCycle s = decodeOpcode s.pins.dataBus { s with pins := { s.pins with rwb := true } })

/-- The consequence that 40_sequencer.md R116 draws (its scope is the spec's decision D3, log entry 7): at the end of a
cycle the pin says "write" if and only if that cycle ran `LATCH_HI_STA`. -/
def Obligations.WriteOnlyAfterStoreMicroOp : Prop :=
  ∀ s : State, (engineCycle s).pins.rwb = false ↔
    s.pins.resetEn = true ∧ ∃ q, s.queue = .latchHiSta :: q

/-- 40_sequencer.md R120: the increment is modulo 65536, 0xFFFF gives 0x0000, the address bus shows the new value and
nothing else records anything. -/
def Obligations.IncAddrWraps : Prop :=
  (∀ s : State, (incAddr s).reg.pc.toNat = (s.reg.pc.toNat + 1) % 65536 ∧
    incAddr s = { s with reg := { s.reg with pc := (incAddr s).reg.pc }
                         pins := { s.pins with addressBus := (incAddr s).reg.pc } }) ∧
  (∀ s : State, s.reg.pc = 0xFFFF#16 → (incAddr s).reg.pc = 0x0000#16)

/-- 41_accumulator_ops.md R143: what `LD_A` does; only the decode of 0xA9 enqueues it; it runs in the next cycle unless
that cycle is a reset cycle, which clears it from the queue. -/
def Obligations.LoadMicroOp : Prop :=
  (∀ s : State, runMicroOp .ldA s =
    { s with reg := { s.reg with a := s.pins.dataBus, pc := s.reg.pc + 1 }
             pins := { s.pins with addressBus := s.reg.pc + 1 } }) ∧
  (∀ (op : Byte) (s : State), s.queue = [] → (.ldA ∈ (decodeOpcode op s).queue ↔ op = 0xA9#8)) ∧
  (∀ (s : State) (q : List MicroOp), s.queue = .ldA :: q →
    (s.pins.resetEn = true → engineCycle s = runMicroOp .ldA { forceRead s with queue := q }) ∧
    (s.pins.resetEn = false → .ldA ∉ (engineCycle s).queue ∧ (engineCycle s).reg.a = 0x00#8))

/-- 41_accumulator_ops.md R144: what `AND_A` does; only the decode of 0x29 enqueues it. -/
def Obligations.AndMicroOp : Prop :=
  (∀ s : State, runMicroOp .andA s =
    { s with reg := { s.reg with a := s.reg.a &&& s.pins.dataBus, pc := s.reg.pc + 1 }
             pins := { s.pins with addressBus := s.reg.pc + 1 } }) ∧
  (∀ (op : Byte) (s : State), s.queue = [] → (.andA ∈ (decodeOpcode op s).queue ↔ op = 0x29#8))

/-- 40_sequencer.md R125: what `LATCH_LO` does. That it addresses and that the high byte stays are the spec's decisions
D6 and D5 (log entries 10 and 9). -/
def Obligations.LatchLowMicroOp : Prop :=
  ∀ s : State,
    lowByte (runMicroOp .latchLo s).reg.internal = s.pins.dataBus ∧
    highByte (runMicroOp .latchLo s).reg.internal = highByte s.reg.internal ∧
    runMicroOp .latchLo s =
      { s with reg := { s.reg with internal := (runMicroOp .latchLo s).reg.internal, pc := s.reg.pc + 1 }
               pins := { s.pins with addressBus := s.reg.pc + 1 } }

/-- 42_jump.md R151: what `LATCH_HI_JMP` does; only the decode of 0x4C enqueues it, behind a `LATCH_LO`. -/
def Obligations.JumpMicroOp : Prop :=
  (∀ s : State,
    highByte (runMicroOp .latchHiJmp s).reg.internal = s.pins.dataBus ∧
    lowByte (runMicroOp .latchHiJmp s).reg.internal = lowByte s.reg.internal ∧
    runMicroOp .latchHiJmp s =
      { s with reg := { s.reg with internal := (runMicroOp .latchHiJmp s).reg.internal
                                   pc := (runMicroOp .latchHiJmp s).reg.internal }
               pins := { s.pins with addressBus := (runMicroOp .latchHiJmp s).reg.internal } }) ∧
  (∀ (op : Byte) (s : State), s.queue = [] →
    (.latchHiJmp ∈ (decodeOpcode op s).queue ↔ op = 0x4C#8) ∧
    (op = 0x4C#8 → (decodeOpcode op s).queue = [.latchLo, .latchHiJmp]))

/-- 43_store.md R161: what `LATCH_HI_STA` does; it is the only place where the pin becomes "write" and the only place
in the engine where the latch is written; only the decode of 0x8D enqueues it, behind a `LATCH_LO`. -/
def Obligations.StoreMicroOp : Prop :=
  (∀ s : State,
    highByte (runMicroOp .latchHiSta s).reg.internal = s.pins.dataBus ∧
    lowByte (runMicroOp .latchHiSta s).reg.internal = lowByte s.reg.internal ∧
    runMicroOp .latchHiSta s =
      { s with reg := { s.reg with internal := (runMicroOp .latchHiSta s).reg.internal, pc := s.reg.pc + 1 }
               pins := { s.pins with addressBus := (runMicroOp .latchHiSta s).reg.internal
                                     dataBus := s.reg.a
                                     rwb := false } }) ∧
  (∀ (m : MicroOp) (s : State), m ≠ .latchHiSta →
    (runMicroOp m s).pins.rwb = s.pins.rwb ∧ (runMicroOp m s).pins.dataBus = s.pins.dataBus) ∧
  (∀ (op : Byte) (s : State), (decodeOpcode op s).pins.rwb = s.pins.rwb ∧
    (decodeOpcode op s).pins.dataBus = s.pins.dataBus) ∧
  (∀ s : State, (resetAction s).pins.rwb = s.pins.rwb ∧ (resetAction s).pins.dataBus = s.pins.dataBus) ∧
  (∀ (op : Byte) (s : State), s.queue = [] →
    (.latchHiSta ∈ (decodeOpcode op s).queue ↔ op = 0x8D#8) ∧
    (op = 0x8D#8 → (decodeOpcode op s).queue = [.latchLo, .latchHiSta]))

/-! ### Reset -/

/-- A pin reset from any state, in the middle of an instruction or not (60_exceptions.md R175, R177; the values of
10_state.md R42 but for `pc`, on which R42 rests on decision D4, log entry 8): registers and queue as the reset action
leaves them, the vector addressed, no byte of memory changed, and the pin at "read" (in a reset cycle by the spec's
decision D3, log entry 7). -/
def Obligations.PinResetFromAnyState : Prop :=
  ∀ s : State, WriteDone s →
    (clockCycle false s).reg.a = 0x00#8 ∧ (clockCycle false s).reg.x = 0x00#8 ∧
    (clockCycle false s).reg.y = 0x00#8 ∧ (clockCycle false s).reg.sp = 0xFF#8 ∧
    (clockCycle false s).reg.internal = 0x0000#16 ∧ (clockCycle false s).queue = [.rvLo, .rvHi] ∧
    (clockCycle false s).pins.addressBus = 0xFFFC#16 ∧ (clockCycle false s).pins.rwb = true ∧
    (clockCycle false s).pins.resetEn = false ∧ (clockCycle false s).pins.clock = true ∧
    (clockCycle false s).nodes.addr = 0xFFFC#16 ∧ (clockCycle false s).nodes.rwb = true ∧
    SameMemory s (clockCycle false s)

/-- The reset sequence, cycle by cycle, from any state (70_reset_and_hazards.md R201, 95_test_vectors.md S1): one reset
cycle, the low vector byte, the high vector byte; then `pc` holds the vector and the bus brings the first opcode. That a
reset right after a write cycle reads the vector rests on the spec's decision D3 (log entry 7). -/
def Obligations.ResetSequenceFetchesTheVector : Prop :=
  ∀ s : State, s.nodes.cs = true → WriteDone s →
    let c0 := clockCycle false s
    let c1 := clockCycle true c0
    let c2 := clockCycle true c1
    c0.pins.addressBus = 0xFFFC#16 ∧ c0.nodes.data = s.mem.read 0xFFFC ∧
    c1.pins.addressBus = 0xFFFD#16 ∧ c1.nodes.data = s.mem.read 0xFFFD ∧ c1.queue = [.rvHi] ∧
    c2.reg = { a := 0x00#8, x := 0x00#8, y := 0x00#8, sp := 0xFF#8, internal := 0x0000#16,
               pc := wordOf (s.mem.read 0xFFFD) (s.mem.read 0xFFFC) } ∧
    c2.queue = [] ∧ c2.pins.addressBus = c2.reg.pc ∧ c2.pins.rwb = true ∧
    c2.nodes.data = s.mem.read c2.reg.pc.toNat ∧ SameMemory s c2

/-- 70_reset_and_hazards.md R200: from power-on, with any image, while the environment never raises reset-enable, the
machine stays in reset cycles whatever the clock does: registers at their reset values, memory untouched, and from the
first rising edge on the queue holds the two vector micro-ops. The values before the first edge are those of the default
power-on state (the spec's decision D2, log entry 2). -/
def Obligations.ResetHeldLowNeverEnds : Prop :=
  ∀ (image : Memory) (w levels : List Levels), (∀ lv ∈ levels, lv.resetEn = false) →
    let t := runWave levels (State.powerOn image w)
    t.reg.a = 0x00#8 ∧ t.reg.x = 0x00#8 ∧ t.reg.y = 0x00#8 ∧ t.reg.sp = 0xFF#8 ∧ t.reg.internal = 0x0000#16 ∧
    t.mem = image ∧ t.pins.rwb = true ∧
    (0 < risingEdges false levels → t.queue = [.rvLo, .rvHi] ∧ t.pins.addressBus = 0xFFFC#16)

/-- The model's choice of log entry 2: `State.reset` is the state one reset cycle of the reference waveform after the
default power-on state with no byte listed. -/
def Obligations.ResetStateIsOneCycleFromPowerOn : Prop :=
  clockCycle false (State.powerOn [] []) = State.reset

/-! ### What each instruction does, and its frame

In each of these `exec` answers a next state, in every state in which a held write has reached the memory (`WriteDone`,
which every step leaves: `EveryStepSettlesTheBus`). `reg`, `queue`, `pins` and `wave` of the next state are given whole,
so what is not named there is unchanged; the nodes follow by `EveryStepSettlesTheBus`, apart from `cs`. -/

/-- LDA #imm (41_accumulator_ops.md R140, net effect): the accumulator, `pc + 2`, and nothing else. -/
def Obligations.LoadImmediateResult : Prop :=
  ∀ (imm : Byte) (s : State), WriteDone s → ∃ t, exec (.ldaImm imm) s = .next t ∧
    t.reg = { s.reg with a := imm, pc := s.reg.pc + 2 } ∧ t.queue = [] ∧ t.wave = s.wave ∧
    t.pins = { clock := true, resetEn := true, dataBus := imm, rwb := true, addressBus := s.reg.pc + 2 } ∧
    t.nodes.cs = s.nodes.cs ∧ SameMemory s t

/-- AND #imm (41_accumulator_ops.md R141, net effect): the accumulator bit by bit, `pc + 2`, and nothing else. -/
def Obligations.AndImmediateResult : Prop :=
  ∀ (imm : Byte) (s : State), WriteDone s → ∃ t, exec (.andImm imm) s = .next t ∧
    (∀ k : Nat, t.reg.a.getLsbD k = (s.reg.a.getLsbD k && imm.getLsbD k)) ∧
    t.reg = { s.reg with a := t.reg.a, pc := s.reg.pc + 2 } ∧ t.queue = [] ∧ t.wave = s.wave ∧
    t.pins = { clock := true, resetEn := true, dataBus := imm, rwb := true, addressBus := s.reg.pc + 2 } ∧
    t.nodes.cs = s.nodes.cs ∧ SameMemory s t

/-- ASL A (41_accumulator_ops.md R142, net effect): twice the accumulator modulo 256, bit 0 clear, the old bit 7 kept
nowhere, `pc + 1`, and nothing else. -/
def Obligations.ShiftLeftResult : Prop :=
  ∀ s : State, WriteDone s → ∃ t, exec .aslA s = .next t ∧
    t.reg.a.toNat = (s.reg.a.toNat * 2) % 256 ∧ t.reg.a.getLsbD 0 = false ∧
    (∀ k : Nat, k < 7 → t.reg.a.getLsbD (k + 1) = s.reg.a.getLsbD k) ∧
    t.reg = { s.reg with a := t.reg.a, pc := s.reg.pc + 1 } ∧ t.queue = s.queue ∧ t.wave = s.wave ∧
    t.pins = { clock := true, resetEn := true, dataBus := 0x0A#8, rwb := true, addressBus := s.reg.pc + 1 } ∧
    t.nodes.cs = s.nodes.cs ∧ SameMemory s t

/-- JMP abs (42_jump.md R150, net effect): `pc` and `internal` are the operand exactly, and nothing else. -/
def Obligations.JumpResult : Prop :=
  ∀ (addr : Word) (s : State), WriteDone s → ∃ t, exec (.jmpAbs addr) s = .next t ∧
    t.reg = { s.reg with internal := addr, pc := addr } ∧ t.queue = [] ∧ t.wave = s.wave ∧
    t.pins = { clock := true, resetEn := true, dataBus := highByte addr, rwb := true, addressBus := addr } ∧
    t.nodes.cs = s.nodes.cs ∧ SameMemory s t

/-- STA abs (43_store.md R160 to R162, net effect): the selected memory holds the accumulator at the operand address at
the end of the instruction, no other byte changes, the bus still shows the write, `pc + 3`. A memory that is not
selected stores nothing (70_reset_and_hazards.md R212). -/
def Obligations.StoreResult : Prop :=
  ∀ (addr : Word) (s : State), WriteDone s → ∃ t, exec (.staAbs addr) s = .next t ∧
    t.reg = { s.reg with internal := addr, pc := s.reg.pc + 3 } ∧ t.queue = [] ∧ t.wave = s.wave ∧
    t.pins = { clock := true, resetEn := true, dataBus := s.reg.a, rwb := false, addressBus := addr } ∧
    t.nodes.addr = addr ∧ t.nodes.data = s.reg.a ∧ t.nodes.rwb = false ∧ t.nodes.we = true ∧
    t.nodes.cs = s.nodes.cs ∧
    (s.nodes.cs = true → t.mem.read addr.toNat = s.reg.a) ∧
    (s.nodes.cs = false → t.mem.read addr.toNat = s.mem.read addr.toNat) ∧
    (∀ b : Nat, b ≠ addr.toNat → t.mem.read b = s.mem.read b)

/-- An unrecognised opcode (60_exceptions.md R170 to cycle 3, R177): registers cleared, `sp` 0xFF, `pc` at the address
the vector holds (where the memory is selected), the next opcode addressed, memory unchanged. That one step runs to
that boundary is the model's granularity (log entries 4 and 12). -/
def Obligations.UnrecognisedOpcodeResult : Prop :=
  ∀ (op : Byte) (s : State), WriteDone s → ∃ t, exec (.undef op) s = .next t ∧
    t.reg = { a := 0x00#8, x := 0x00#8, y := 0x00#8, sp := 0xFF#8, internal := 0x0000#16, pc := t.reg.pc } ∧
    (s.nodes.cs = true → t.reg.pc = wordOf (s.mem.read 0xFFFD) (s.mem.read 0xFFFC)) ∧
    t.queue = [] ∧ t.wave = s.wave ∧
    t.pins = { clock := true, resetEn := true, dataBus := highByte t.reg.pc, rwb := true,
               addressBus := t.reg.pc } ∧
    t.nodes.cs = s.nodes.cs ∧ SameMemory s t

/-! ### The same, clock cycle by clock cycle, with the instruction in memory -/

/-- 41_accumulator_ops.md R140: both cycles of `A9 imm` at `pc`, any address, wrapping. -/
def Obligations.LoadImmediateCycles : Prop :=
  ∀ s : State, FetchesAtPc s → s.mem.read s.reg.pc.toNat = 0xA9#8 →
    let imm := s.mem.read (s.reg.pc + 1).toNat
    let c1 := clockCycle true s
    let c2 := clockCycle true c1
    c1.pins.dataBus = 0xA9#8 ∧ c1.queue = [.ldA] ∧ c1.reg = { s.reg with pc := s.reg.pc + 1 } ∧
    c1.pins.addressBus = s.reg.pc + 1 ∧ c2.pins.dataBus = imm ∧
    c2.reg = { s.reg with a := imm, pc := s.reg.pc + 2 } ∧ c2.queue = [] ∧ c2.pins.addressBus = s.reg.pc + 2 ∧
    SameMemory s c2 ∧ c2.nodes.data = s.mem.read (s.reg.pc + 2).toNat ∧ step s = .next c2

/-- 41_accumulator_ops.md R141: both cycles of `29 imm` at `pc`, with the source's corner cases. -/
def Obligations.AndImmediateCycles : Prop :=
  ∀ s : State, FetchesAtPc s → s.mem.read s.reg.pc.toNat = 0x29#8 →
    let imm := s.mem.read (s.reg.pc + 1).toNat
    let c1 := clockCycle true s
    let c2 := clockCycle true c1
    c1.pins.dataBus = 0x29#8 ∧ c1.queue = [.andA] ∧ c1.reg = { s.reg with pc := s.reg.pc + 1 } ∧
    c1.pins.addressBus = s.reg.pc + 1 ∧ c2.pins.dataBus = imm ∧
    c2.reg = { s.reg with a := s.reg.a &&& imm, pc := s.reg.pc + 2 } ∧ c2.queue = [] ∧
    c2.pins.addressBus = s.reg.pc + 2 ∧ SameMemory s c2 ∧
    c2.nodes.data = s.mem.read (s.reg.pc + 2).toNat ∧ step s = .next c2 ∧
    (imm = 0xFF#8 → c2.reg.a = s.reg.a) ∧ (imm = 0x00#8 → c2.reg.a = 0x00#8) ∧
    (imm = s.reg.a → c2.reg.a = s.reg.a)

/-- 41_accumulator_ops.md R142: the one cycle of `0A` at `pc`; the queue stays empty; eight in a row clear the
accumulator. -/
def Obligations.ShiftLeftCycle : Prop :=
  ∀ s : State, FetchesAtPc s → s.mem.read s.reg.pc.toNat = 0x0A#8 →
    let c1 := clockCycle true s
    c1.pins.dataBus = 0x0A#8 ∧ c1.reg.a.toNat = (s.reg.a.toNat * 2) % 256 ∧
    (∀ k : Nat, k < 7 → c1.reg.a.getLsbD (k + 1) = s.reg.a.getLsbD k) ∧ c1.reg.a.getLsbD 0 = false ∧
    c1.reg.a = aslResult s.reg.a ∧ aslResult^[8] s.reg.a = 0x00#8 ∧
    c1.reg = { s.reg with a := c1.reg.a, pc := s.reg.pc + 1 } ∧ c1.queue = [] ∧
    c1.pins.addressBus = s.reg.pc + 1 ∧ SameMemory s c1 ∧
    c1.nodes.data = s.mem.read (s.reg.pc + 1).toNat ∧ step s = .next c1

/-- 42_jump.md R150: the three cycles of `4C lo hi` at `pc`. The advance in cycles 1 and 2 rests on the spec's decision
D6 (log entry 10). -/
def Obligations.JumpCycles : Prop :=
  ∀ s : State, FetchesAtPc s → s.mem.read s.reg.pc.toNat = 0x4C#8 →
    let lo := s.mem.read (s.reg.pc + 1).toNat
    let hi := s.mem.read (s.reg.pc + 2).toNat
    let c1 := clockCycle true s
    let c2 := clockCycle true c1
    let c3 := clockCycle true c2
    c1.pins.dataBus = 0x4C#8 ∧ c1.queue = [.latchLo, .latchHiJmp] ∧
    c1.reg = { s.reg with pc := s.reg.pc + 1 } ∧ c1.pins.addressBus = s.reg.pc + 1 ∧
    c2.pins.dataBus = lo ∧ c2.queue = [.latchHiJmp] ∧ lowByte c2.reg.internal = lo ∧
    c2.reg = { s.reg with internal := c2.reg.internal, pc := s.reg.pc + 2 } ∧
    c2.pins.addressBus = s.reg.pc + 2 ∧ c3.pins.dataBus = hi ∧
    c3.reg = { s.reg with internal := wordOf hi lo, pc := wordOf hi lo } ∧ c3.queue = [] ∧
    c3.pins.addressBus = wordOf hi lo ∧ SameMemory s c3 ∧
    c3.nodes.data = s.mem.read (wordOf hi lo).toNat ∧ step s = .next c3

/-- 43_store.md R160: the three cycles of `8D lo hi` at `pc`; only in the third does the read/write-bar node say
"write", and in that same step the memory has the byte. The advance in cycles 1 and 2 rests on the spec's decision D6
(log entry 10). -/
def Obligations.StoreCycles : Prop :=
  ∀ s : State, FetchesAtPc s → s.mem.read s.reg.pc.toNat = 0x8D#8 →
    let lo := s.mem.read (s.reg.pc + 1).toNat
    let hi := s.mem.read (s.reg.pc + 2).toNat
    let c1 := clockCycle true s
    let c2 := clockCycle true c1
    let c3 := clockCycle true c2
    c1.pins.dataBus = 0x8D#8 ∧ c1.queue = [.latchLo, .latchHiSta] ∧ c1.nodes.rwb = true ∧
    c1.reg = { s.reg with pc := s.reg.pc + 1 } ∧ c1.pins.addressBus = s.reg.pc + 1 ∧
    c2.pins.dataBus = lo ∧ c2.queue = [.latchHiSta] ∧ lowByte c2.reg.internal = lo ∧ c2.nodes.rwb = true ∧
    c2.reg = { s.reg with internal := c2.reg.internal, pc := s.reg.pc + 2 } ∧
    c2.pins.addressBus = s.reg.pc + 2 ∧ SameMemory s c2 ∧
    c3.reg = { s.reg with internal := wordOf hi lo, pc := s.reg.pc + 3 } ∧ c3.queue = [] ∧
    c3.pins.addressBus = wordOf hi lo ∧ c3.pins.dataBus = s.reg.a ∧ c3.pins.rwb = false ∧ c3.nodes.rwb = false ∧
    c3.mem.read (wordOf hi lo).toNat = s.reg.a ∧
    (∀ b : Nat, b ≠ (wordOf hi lo).toNat → c3.mem.read b = s.mem.read b) ∧ step s = .next c3

/-- 60_exceptions.md R170: the three cycles of an unrecognised byte at `pc`, and the fourth decodes the byte at the
vector's address. Of `pc` only its value after the vector micro-ops is stated (91_not_in_source.md N4). -/
def Obligations.UnrecognisedOpcodeCycles : Prop :=
  ∀ s : State, FetchesAtPc s → recognised (s.mem.read s.reg.pc.toNat) = false →
    let c1 := clockCycle true s
    let c2 := clockCycle true c1
    let c3 := clockCycle true c2
    c1.reg.a = 0x00#8 ∧ c1.reg.x = 0x00#8 ∧ c1.reg.y = 0x00#8 ∧ c1.reg.internal = 0x0000#16 ∧ c1.reg.sp = 0xFF#8 ∧
    c1.queue = [.rvLo, .rvHi] ∧ c1.pins.addressBus = 0xFFFC#16 ∧
    c2.queue = [.rvHi] ∧ c2.pins.addressBus = 0xFFFD#16 ∧ c2.pins.dataBus = s.mem.read 0xFFFC ∧
    c3.queue = [] ∧ c3.reg.pc = wordOf (s.mem.read 0xFFFD) (s.mem.read 0xFFFC) ∧
    c3.pins.addressBus = c3.reg.pc ∧ SameMemory s c3 ∧ step s = .next c3 ∧
    (clockCycle true c3).pins.dataBus = s.mem.read c3.reg.pc.toNat

/-! ### From instruction to instruction -/

/-- A step runs the decoded instruction: with a bus that shows `pc`, the bytes in memory there decode to `i`, and the
step is `exec i`, with nothing added around it (the instruction's own cycles move `pc` and the bus). -/
def Obligations.StepRunsTheDecodedInstruction : Prop :=
  ∀ (s : State) (i : Instr) (rest : List Byte), FetchesAtPc s →
    decode [s.mem.read s.reg.pc.toNat, s.mem.read (s.reg.pc + 1).toNat, s.mem.read (s.reg.pc + 2).toNat] =
      .ok (i, rest) →
    step s = exec i s

/-- 43_store.md R163 (an inference the spec makes from its rules, conflict C5, log entry 11): the step after a store
runs the instruction whose opcode is the stored byte and whose operands are at P+4 and P+5; the byte at P+3 has no
influence on it. -/
def Obligations.StoredByteIsTheNextOpcode : Prop :=
  ∀ (addr : Word) (s t : State), s.wave = [] → s.nodes.cs = true → exec (.staAbs addr) s = .next t →
    step t = exec (decodeThree s.reg.a (t.mem.read (s.reg.pc + 4).toNat) (t.mem.read (s.reg.pc + 5).toNat)) t ∧
    (clockCycle true t).pins.dataBus = s.reg.a ∧
    (∀ b : Byte, fetch { t with mem := t.mem.write (s.reg.pc + 3).toNat b } = fetch t)

/-- The step at an instruction boundary is that many clock cycles of the whole system, in every state: the instruction
meanings, which are given the operand bytes (log entry 5), agree with the engine, which gets them over the bus
(70_reset_and_hazards.md R216; 40_sequencer.md R115 to R127). That one step runs to the next boundary, for an
unrecognised opcode the fallback cycle and the two vector cycles, is the model's granularity (log entries 4 and 12). -/
def Obligations.StepFollowsTheBus : Prop :=
  ∀ s : State, AtBoundary s → step s = .next (runCycles (cycleCount (fetch s)) s)

/-- The two granularities of the machine agree: the levels of the running reference waveform, taken one simulation step
at a time, lead where one step without pending levels leads (00_scope.md R7, R8; log entries 3 and 4). -/
def Obligations.SimulationStepsAgreeWithStep : Prop :=
  ∀ s : State, s.wave = [] →
    let n := if s.queue = [] then cycleCount (fetch s) else s.queue.length
    Host.Core.run Sys2Proof.core (2 * n) { s with wave := runningWave n } = step s

/-- Pending levels are simulation steps, one each, in order, whatever the levels (00_scope.md R7). -/
def Obligations.PendingLevelsAreSimulationSteps : Prop :=
  ∀ (levels : List Levels) (s : State),
    Host.Core.run Sys2Proof.core levels.length { s with wave := levels } =
      .next { runWave levels s with wave := [] }

/-- 60_exceptions.md R173: every condition is a state transition; no step and no instruction stops the machine. -/
def Obligations.EveryStepAnswersNext : Prop :=
  (∀ s : State, ∃ t, step s = .next t) ∧ ∀ (i : Instr) (s : State), ∃ t, exec i s = .next t

/-! ### Invariants -/

/-- The queue is one of nine, the bus shows what it wants next, the pin says "write" only after a store
(10_state.md R29 to R31, 40_sequencer.md R116, R122, R123): every step keeps it. -/
def Obligations.SequencerStaysConsistent : Prop :=
  ∀ s t : State, SequencerConsistent s → step s = .next t → SequencerConsistent t

/-- The memory keeps its canonical form and its addresses stay inside the space (10_state.md R32, R40). -/
def Obligations.MemoryStaysCanonical : Prop :=
  ∀ s t : State, s.mem.wf → step s = .next t → t.mem.wf

/-- Every step leaves the nodes at what the processor presents and the data bus in agreement with the memory, and a
held write done (40_sequencer.md R114, 20_memory.md R59 to R61, R72, 43_store.md R162). -/
def Obligations.EveryStepSettlesTheBus : Prop :=
  ∀ s t : State, step s = .next t → BusSettled t ∧ WriteDone t

/-- `x`, `y` and `sp` keep their reset values (10_state.md R27, R28). -/
def Obligations.IndexRegistersKeepTheirReset : Prop :=
  ∀ s t : State, IndexAtReset s → step s = .next t → IndexAtReset t

/-- The invariants hold right after reset. -/
def Obligations.InvariantsHoldAtReset : Prop :=
  SequencerConsistent State.reset ∧ State.reset.mem.wf ∧ BusSettled State.reset ∧ WriteDone State.reset ∧
  IndexAtReset State.reset

/-! ### Rules about the whole machine -/

/-- Steps without a rising edge change nothing a program can see (40_sequencer.md R111, R112; 20_memory.md R60, R61,
R64; 70_reset_and_hazards.md R210): registers, queue, sampled reset-enable, latch and memory bytes stay, and the byte on
the bus stays, however often the gate and the memory act and whatever reset-enable does meanwhile. -/
def Obligations.NothingMovesWithoutARisingEdge : Prop :=
  ∀ (levels : List Levels) (s : State), BusSettled s → risingEdges s.pins.clock levels = 0 →
    (runWave levels s).reg = s.reg ∧ (runWave levels s).queue = s.queue ∧
    (runWave levels s).pins = { s.pins with clock := (runWave levels s).pins.clock } ∧
    (runWave levels s).nodes.data = s.nodes.data ∧ SameMemory s (runWave levels s) ∧ BusSettled (runWave levels s)

/-- Only STA changes memory, and only the byte at its operand address (43_store.md R164). -/
def Obligations.MemoryChangesOnlyByStore : Prop :=
  ∀ s t : State, AtBoundary s → WriteDone s → step s = .next t →
    ((∀ addr, fetch s ≠ .staAbs addr) → SameMemory s t) ∧
    (∀ addr, fetch s = .staAbs addr → ∀ b : Nat, b ≠ addr.toNat → t.mem.read b = s.mem.read b)

/-- Nothing reads `x`, `y` or `sp` (10_state.md R27, R28): two states that differ in them only step to two states that
differ in them only. -/
def Obligations.IndexRegistersInfluenceNothing : Prop :=
  ∀ s s' t : State, withoutIndex s = withoutIndex s' → step s = .next t →
    ∃ t', step s' = .next t' ∧ withoutIndex t = withoutIndex t'

/-- What the scratch latch holds at an instruction boundary never influences anything but itself (10_state.md R33). -/
def Obligations.OldScratchLatchInfluencesNothing : Prop :=
  ∀ (s t : State) (w : Word), s.queue = [] → step s = .next t →
    ∃ t', step { s with reg := { s.reg with internal := w } } = .next t' ∧ withoutScratch t = withoutScratch t'

/-- After a reset action the old `pc` has no influence: the vector fetch leads to one state (70_reset_and_hazards.md
R201; 92_eei_decisions.md D4, log entry 8). -/
def Obligations.VectorFetchForgetsTheOldPc : Prop :=
  ∀ (s : State) (p : Word), s.wave = [] → s.queue = [.rvLo, .rvHi] →
    step { s with reg := { s.reg with pc := p } } = step s

/-- 60_exceptions.md R171: nothing records which unrecognised byte it was. -/
def Obligations.NothingRecordsTheOpcode : Prop :=
  ∀ (op op' : Byte) (s : State), exec (.undef op) s = exec (.undef op') s

/-- 60_exceptions.md R171, R177: a reset from the pin and one from an opcode lead to the same state, of the processor,
the bus and the memory, at the boundary after the vector fetch. For the pin this rests on the spec's decision D3 (log
entry 7). -/
def Obligations.PinResetEqualsOpcodeReset : Prop :=
  ∀ (op : Byte) (s : State), exec (.undef op) s = .next (runCycles 2 (clockCycle false s))

/-- 60_exceptions.md R179: if the vector points at an unrecognised opcode the machine repeats the reset sequence for
ever, with no other effect. -/
def Obligations.VectorAtUnrecognisedByteLoops : Prop :=
  ∀ (op : Byte) (s t : State), exec (.undef op) s = .next t → t.wave = [] → t.nodes.cs = true →
    recognised (t.mem.read t.reg.pc.toNat) = false → step t = .next t

/-- 42_jump.md R150, corner case: after a jump to its own address every step leads to the same state again. -/
def Obligations.JumpToItselfIdles : Prop :=
  ∀ s t : State, FetchesAtPc s → s.mem.read s.reg.pc.toNat = 0x4C#8 →
    s.mem.read (s.reg.pc + 1).toNat = lowByte s.reg.pc → s.mem.read (s.reg.pc + 2).toNat = highByte s.reg.pc →
    step s = .next t → t.reg.pc = s.reg.pc ∧ step t = .next t

/-- 70_reset_and_hazards.md R213, 20_memory.md R65: the vector is ordinary memory; a store to one of its two bytes
redirects the next reset and leaves the other byte as it was. -/
def Obligations.StoreRedirectsTheVector : Prop :=
  ∀ (op : Byte) (s t u : State), WriteDone s → s.nodes.cs = true → exec (.undef op) t = .next u →
    (exec (.staAbs 0xFFFC#16) s = .next t → u.reg.pc = wordOf (s.mem.read 0xFFFD) s.reg.a) ∧
    (exec (.staAbs 0xFFFD#16) s = .next t → u.reg.pc = wordOf s.reg.a (s.mem.read 0xFFFC))

/-- 70_reset_and_hazards.md R212: a memory that is not selected never stores, and a machine that reads the creation
value 0x00 from the bus takes the fallback and keeps reading it. -/
def Obligations.UnselectedMemoryNeverActs : Prop :=
  ∀ s t : State, s.nodes.cs = false → step s = .next t →
    t.mem = s.mem ∧ t.nodes.cs = false ∧
    (AtBoundary s → s.pins.rwb = true → s.nodes.data = 0x00#8 →
      fetch s = .undef 0x00#8 ∧ t.queue = [] ∧ t.pins.rwb = true ∧ t.nodes.data = 0x00#8)
end

