-- ==== Sys2Proof/Laws/Memory.lean ====
section
/-! SUPPORT. The laws of the memory array: a read after a write, the other addresses, and the canonical form. -/

namespace Sys2Proof.Machine

@[simp] theorem Memory.read_nil (a : Nat) : Memory.read [] a = Config.unlistedByte := rfl

theorem Memory.read_cons (k : Nat) (v : Byte) (m : Memory) (a : Nat) :
    Memory.read ((k, v) :: m) a = if k = a then v else m.read a := rfl

/-- An address without a pair reads the image byte. -/
theorem Memory.read_of_absent {m : Memory} {a : Nat} (h : ∀ c ∈ m, c.1 ≠ a) : m.read a = Config.unlistedByte := by
  induction m with
  | nil => rfl
  | cons c m ih =>
    rw [Memory.read_cons, if_neg (h c (by simp)), ih (fun d hd => h d (by simp [hd]))]

theorem Memory.read_forget_same (m : Memory) (a : Nat) : (m.forget a).read a = Config.unlistedByte :=
  Memory.read_of_absent (by simp [Memory.forget])

theorem Memory.read_forget_other (m : Memory) {a b : Nat} (h : b ≠ a) : (m.forget a).read b = m.read b := by
  induction m with
  | nil => rfl
  | cons c m ih =>
    obtain ⟨k, v⟩ := c
    by_cases hk : k = a
    · subst hk
      have he : Memory.forget ((k, v) :: m) k = Memory.forget m k := by simp [Memory.forget]
      rw [he, ih, Memory.read_cons, if_neg (Ne.symm h)]
    · have he : Memory.forget ((k, v) :: m) a = (k, v) :: Memory.forget m a := by simp [Memory.forget, hk]
      rw [he, Memory.read_cons, Memory.read_cons, ih]

theorem Memory.read_place_other (m : Memory) {a b : Nat} (v : Byte) (h : b ≠ a) :
    (Memory.place a v m).read b = m.read b := by
  induction m with
  | nil => simp [Memory.place, Memory.read_cons, Ne.symm h]
  | cons c m ih =>
    obtain ⟨k, w⟩ := c
    unfold Memory.place
    split <;> simp [Memory.read_cons, ih, Ne.symm h]

theorem Memory.read_place_same {m : Memory} {a : Nat} (v : Byte) (h : ∀ c ∈ m, c.1 ≠ a) :
    (Memory.place a v m).read a = v := by
  induction m with
  | nil => simp [Memory.place, Memory.read_cons]
  | cons c m ih =>
    obtain ⟨k, w⟩ := c
    have hk : k ≠ a := h (k, w) (by simp)
    unfold Memory.place
    split
    · simp [Memory.read_cons]
    · rw [Memory.read_cons, if_neg hk, ih (fun d hd => h d (by simp [hd]))]

/-- Reading an address right after writing it gives the byte written (10_state.md R32, 20_memory.md R67). -/
@[simp] theorem Memory.read_write_same (m : Memory) (a : Nat) (v : Byte) : (m.write a v).read a = v := by
  unfold Memory.write
  split
  · next h => rw [Memory.read_forget_same, h]
  · exact Memory.read_place_same v (by simp [Memory.forget])

/-- A write leaves every other address as it was (20_memory.md R61). -/
theorem Memory.read_write_other (m : Memory) {a b : Nat} (v : Byte) (h : b ≠ a) :
    (m.write a v).read b = m.read b := by
  unfold Memory.write
  split
  · exact Memory.read_forget_other m h
  · rw [Memory.read_place_other _ _ h, Memory.read_forget_other m h]

/-- A write, at any address. -/
theorem Memory.read_write (m : Memory) (a b : Nat) (v : Byte) :
    (m.write a v).read b = if b = a then v else m.read b := by
  split
  · next h => rw [h, Memory.read_write_same]
  · next h => exact Memory.read_write_other m v h

/-- Writing the byte an address already holds changes no read (R50, R64). -/
theorem Memory.read_write_held (m : Memory) {a : Nat} {v : Byte} (h : m.read a = v) (b : Nat) :
    (m.write a v).read b = m.read b := by
  rw [Memory.read_write]
  split
  · next hb => rw [hb, h]
  · rfl

/-! ### The canonical form -/

theorem Memory.wf_nil : Memory.wf [] := by simp [Memory.wf]

theorem Memory.wf_reset : State.reset.mem.wf := Memory.wf_nil

theorem Memory.wf_forget {m : Memory} (h : m.wf) (a : Nat) : (m.forget a).wf :=
  ⟨h.1.filter _, fun c hc => h.2 c (List.mem_filter.mp hc).1⟩

theorem Memory.mem_place {m : Memory} {a : Nat} {v : Byte} {c : Host.Cell} :
    c ∈ Memory.place a v m ↔ c = (a, v) ∨ c ∈ m := by
  induction m with
  | nil => simp [Memory.place]
  | cons d m ih =>
    obtain ⟨k, w⟩ := d
    unfold Memory.place
    split
    · simp
    · simp only [List.mem_cons, ih]
      tauto

theorem Memory.wf_place {m : Memory} (h : m.wf) {a : Nat} {v : Byte} (ha : a < Config.memSize)
    (hv : v ≠ Config.unlistedByte) (hm : ∀ c ∈ m, c.1 ≠ a) : (Memory.place a v m).wf := by
  refine ⟨?_, fun c hc => ?_⟩
  · obtain ⟨hs, -⟩ := h
    induction m with
    | nil => simp [Memory.place]
    | cons d m ih =>
      obtain ⟨k, w⟩ := d
      have hk : k ≠ a := hm (k, w) (by simp)
      rw [List.pairwise_cons] at hs
      unfold Memory.place
      split
      · next hlt =>
        refine List.pairwise_cons.mpr ⟨fun c hc => ?_, List.pairwise_cons.mpr hs⟩
        rcases List.mem_cons.mp hc with rfl | hc
        · exact hlt
        · exact lt_trans hlt (hs.1 c hc)
      · next hge =>
        refine List.pairwise_cons.mpr ⟨fun c hc => ?_, ih (fun c hc => hm c (by simp [hc])) hs.2⟩
        rcases Memory.mem_place.mp hc with rfl | hc
        · show k < a
          omega
        · exact hs.1 c hc
  · rcases Memory.mem_place.mp hc with rfl | hc
    · exact ⟨ha, hv⟩
    · exact h.2 c hc

/-- A write inside the address space keeps the canonical form. -/
theorem Memory.wf_write {m : Memory} (h : m.wf) {a : Nat} (ha : a < Config.memSize) (v : Byte) :
    (m.write a v).wf := by
  unfold Memory.write
  split
  · exact Memory.wf_forget h a
  · next hv => exact Memory.wf_place (Memory.wf_forget h a) ha hv (by simp [Memory.forget])

/-- Every word of the address bus is inside the address space (20_memory.md R66). -/
theorem Memory.word_in_space (w : Word) : w.toNat < Config.memSize := w.isLt

end Sys2Proof.Machine
end

