-- ==== Sys2Proof/Laws/State.lean ====
section
/-! SUPPORT. What every state update of the machine does to every field: one lemma a field, true by unfolding. A group of
fields (`nodes`, `pins`, `reg`) that an update does not touch has one lemma for the group. The proofs are written
`(rfl)` so that `simp` uses the lemmas as propositional equations, also when it discharges a side condition. -/

namespace Sys2Proof.Machine

variable (s : State)


/-! ### drive -/

@[simp] theorem drive_nodes_clk (lv : Levels) : (drive lv s).nodes.clk = lv.clock := (rfl)
@[simp] theorem drive_nodes_resetEn (lv : Levels) : (drive lv s).nodes.resetEn = lv.resetEn := (rfl)
@[simp] theorem drive_nodes_data (lv : Levels) : (drive lv s).nodes.data = s.nodes.data := (rfl)
@[simp] theorem drive_nodes_addr (lv : Levels) : (drive lv s).nodes.addr = s.nodes.addr := (rfl)
@[simp] theorem drive_nodes_rwb (lv : Levels) : (drive lv s).nodes.rwb = s.nodes.rwb := (rfl)
@[simp] theorem drive_nodes_we (lv : Levels) : (drive lv s).nodes.we = s.nodes.we := (rfl)
@[simp] theorem drive_nodes_cs (lv : Levels) : (drive lv s).nodes.cs = s.nodes.cs := (rfl)
@[simp] theorem drive_pins (lv : Levels) : (drive lv s).pins = s.pins := (rfl)
@[simp] theorem drive_reg (lv : Levels) : (drive lv s).reg = s.reg := (rfl)
@[simp] theorem drive_queue (lv : Levels) : (drive lv s).queue = s.queue := (rfl)
@[simp] theorem drive_mem (lv : Levels) : (drive lv s).mem = s.mem := (rfl)
@[simp] theorem drive_wave (lv : Levels) : (drive lv s).wave = s.wave := (rfl)

/-! ### gateTick -/

@[simp] theorem gateTick_nodes_clk : (gateTick s).nodes.clk = s.nodes.clk := (rfl)
@[simp] theorem gateTick_nodes_resetEn : (gateTick s).nodes.resetEn = s.nodes.resetEn := (rfl)
@[simp] theorem gateTick_nodes_data : (gateTick s).nodes.data = s.nodes.data := (rfl)
@[simp] theorem gateTick_nodes_addr : (gateTick s).nodes.addr = s.nodes.addr := (rfl)
@[simp] theorem gateTick_nodes_rwb : (gateTick s).nodes.rwb = s.nodes.rwb := (rfl)
@[simp] theorem gateTick_nodes_we : (gateTick s).nodes.we = gateOut s.nodes.rwb s.nodes.rwb := (rfl)
@[simp] theorem gateTick_nodes_cs : (gateTick s).nodes.cs = s.nodes.cs := (rfl)
@[simp] theorem gateTick_pins : (gateTick s).pins = s.pins := (rfl)
@[simp] theorem gateTick_reg : (gateTick s).reg = s.reg := (rfl)
@[simp] theorem gateTick_queue : (gateTick s).queue = s.queue := (rfl)
@[simp] theorem gateTick_mem : (gateTick s).mem = s.mem := (rfl)
@[simp] theorem gateTick_wave : (gateTick s).wave = s.wave := (rfl)

/-! ### memoryTick -/

@[simp] theorem memoryTick_nodes_clk : (memoryTick s).nodes.clk = s.nodes.clk := (rfl)
@[simp] theorem memoryTick_nodes_resetEn : (memoryTick s).nodes.resetEn = s.nodes.resetEn := (rfl)
@[simp] theorem memoryTick_nodes_data : (memoryTick s).nodes.data =
    (memoryAction s.nodes.cs s.nodes.rwb s.nodes.we s.nodes.addr s.nodes.data s.mem).1 := (rfl)
@[simp] theorem memoryTick_nodes_addr : (memoryTick s).nodes.addr = s.nodes.addr := (rfl)
@[simp] theorem memoryTick_nodes_rwb : (memoryTick s).nodes.rwb = s.nodes.rwb := (rfl)
@[simp] theorem memoryTick_nodes_we : (memoryTick s).nodes.we = s.nodes.we := (rfl)
@[simp] theorem memoryTick_nodes_cs : (memoryTick s).nodes.cs = s.nodes.cs := (rfl)
@[simp] theorem memoryTick_pins : (memoryTick s).pins = s.pins := (rfl)
@[simp] theorem memoryTick_reg : (memoryTick s).reg = s.reg := (rfl)
@[simp] theorem memoryTick_queue : (memoryTick s).queue = s.queue := (rfl)
@[simp] theorem memoryTick_mem : (memoryTick s).mem =
    (memoryAction s.nodes.cs s.nodes.rwb s.nodes.we s.nodes.addr s.nodes.data s.mem).2 := (rfl)
@[simp] theorem memoryTick_wave : (memoryTick s).wave = s.wave := (rfl)

/-! ### sampleInputs -/

@[simp] theorem sampleInputs_nodes : (sampleInputs s).nodes = s.nodes := (rfl)
@[simp] theorem sampleInputs_pins_clock : (sampleInputs s).pins.clock = s.pins.clock := (rfl)
@[simp] theorem sampleInputs_pins_resetEn : (sampleInputs s).pins.resetEn = s.nodes.resetEn := (rfl)
@[simp] theorem sampleInputs_pins_dataBus : (sampleInputs s).pins.dataBus =
    if s.pins.rwb then s.nodes.data else s.pins.dataBus := (rfl)
@[simp] theorem sampleInputs_pins_rwb : (sampleInputs s).pins.rwb = s.pins.rwb := (rfl)
@[simp] theorem sampleInputs_pins_addressBus : (sampleInputs s).pins.addressBus = s.pins.addressBus := (rfl)
@[simp] theorem sampleInputs_reg : (sampleInputs s).reg = s.reg := (rfl)
@[simp] theorem sampleInputs_queue : (sampleInputs s).queue = s.queue := (rfl)
@[simp] theorem sampleInputs_mem : (sampleInputs s).mem = s.mem := (rfl)
@[simp] theorem sampleInputs_wave : (sampleInputs s).wave = s.wave := (rfl)

/-! ### writeBack -/

@[simp] theorem writeBack_nodes_clk : (writeBack s).nodes.clk = s.nodes.clk := (rfl)
@[simp] theorem writeBack_nodes_resetEn : (writeBack s).nodes.resetEn = s.nodes.resetEn := (rfl)
@[simp] theorem writeBack_nodes_data : (writeBack s).nodes.data =
    if s.pins.rwb then s.nodes.data else s.pins.dataBus := (rfl)
@[simp] theorem writeBack_nodes_addr : (writeBack s).nodes.addr = s.pins.addressBus := (rfl)
@[simp] theorem writeBack_nodes_rwb : (writeBack s).nodes.rwb = s.pins.rwb := (rfl)
@[simp] theorem writeBack_nodes_we : (writeBack s).nodes.we = s.nodes.we := (rfl)
@[simp] theorem writeBack_nodes_cs : (writeBack s).nodes.cs = s.nodes.cs := (rfl)
@[simp] theorem writeBack_pins : (writeBack s).pins = s.pins := (rfl)
@[simp] theorem writeBack_reg : (writeBack s).reg = s.reg := (rfl)
@[simp] theorem writeBack_queue : (writeBack s).queue = s.queue := (rfl)
@[simp] theorem writeBack_mem : (writeBack s).mem = s.mem := (rfl)
@[simp] theorem writeBack_wave : (writeBack s).wave = s.wave := (rfl)

/-! ### forceRead -/

@[simp] theorem forceRead_nodes : (forceRead s).nodes = s.nodes := (rfl)
@[simp] theorem forceRead_pins_clock : (forceRead s).pins.clock = s.pins.clock := (rfl)
@[simp] theorem forceRead_pins_resetEn : (forceRead s).pins.resetEn = s.pins.resetEn := (rfl)
@[simp] theorem forceRead_pins_dataBus : (forceRead s).pins.dataBus = s.pins.dataBus := (rfl)
@[simp] theorem forceRead_pins_rwb : (forceRead s).pins.rwb = true := (rfl)
@[simp] theorem forceRead_pins_addressBus : (forceRead s).pins.addressBus = s.pins.addressBus := (rfl)
@[simp] theorem forceRead_reg : (forceRead s).reg = s.reg := (rfl)
@[simp] theorem forceRead_queue : (forceRead s).queue = s.queue := (rfl)
@[simp] theorem forceRead_mem : (forceRead s).mem = s.mem := (rfl)
@[simp] theorem forceRead_wave : (forceRead s).wave = s.wave := (rfl)

/-! ### popFront -/

@[simp] theorem popFront_nodes : (popFront s).nodes = s.nodes := (rfl)
@[simp] theorem popFront_pins : (popFront s).pins = s.pins := (rfl)
@[simp] theorem popFront_reg : (popFront s).reg = s.reg := (rfl)
@[simp] theorem popFront_queue : (popFront s).queue = s.queue.tail := (rfl)
@[simp] theorem popFront_mem : (popFront s).mem = s.mem := (rfl)
@[simp] theorem popFront_wave : (popFront s).wave = s.wave := (rfl)

/-! ### setQueue -/

@[simp] theorem setQueue_nodes (q : List MicroOp) : (setQueue q s).nodes = s.nodes := (rfl)
@[simp] theorem setQueue_pins (q : List MicroOp) : (setQueue q s).pins = s.pins := (rfl)
@[simp] theorem setQueue_reg (q : List MicroOp) : (setQueue q s).reg = s.reg := (rfl)
@[simp] theorem setQueue_queue (q : List MicroOp) : (setQueue q s).queue = q := (rfl)
@[simp] theorem setQueue_mem (q : List MicroOp) : (setQueue q s).mem = s.mem := (rfl)
@[simp] theorem setQueue_wave (q : List MicroOp) : (setQueue q s).wave = s.wave := (rfl)

/-! ### setLatch -/

@[simp] theorem setLatch_nodes (b : Byte) : (setLatch b s).nodes = s.nodes := (rfl)
@[simp] theorem setLatch_pins_clock (b : Byte) : (setLatch b s).pins.clock = s.pins.clock := (rfl)
@[simp] theorem setLatch_pins_resetEn (b : Byte) : (setLatch b s).pins.resetEn = s.pins.resetEn := (rfl)
@[simp] theorem setLatch_pins_dataBus (b : Byte) : (setLatch b s).pins.dataBus = b := (rfl)
@[simp] theorem setLatch_pins_rwb (b : Byte) : (setLatch b s).pins.rwb = s.pins.rwb := (rfl)
@[simp] theorem setLatch_pins_addressBus (b : Byte) : (setLatch b s).pins.addressBus = s.pins.addressBus := (rfl)
@[simp] theorem setLatch_reg (b : Byte) : (setLatch b s).reg = s.reg := (rfl)
@[simp] theorem setLatch_queue (b : Byte) : (setLatch b s).queue = s.queue := (rfl)
@[simp] theorem setLatch_mem (b : Byte) : (setLatch b s).mem = s.mem := (rfl)
@[simp] theorem setLatch_wave (b : Byte) : (setLatch b s).wave = s.wave := (rfl)

/-! ### incAddr -/

@[simp] theorem incAddr_nodes : (incAddr s).nodes = s.nodes := (rfl)
@[simp] theorem incAddr_pins_clock : (incAddr s).pins.clock = s.pins.clock := (rfl)
@[simp] theorem incAddr_pins_resetEn : (incAddr s).pins.resetEn = s.pins.resetEn := (rfl)
@[simp] theorem incAddr_pins_dataBus : (incAddr s).pins.dataBus = s.pins.dataBus := (rfl)
@[simp] theorem incAddr_pins_rwb : (incAddr s).pins.rwb = s.pins.rwb := (rfl)
@[simp] theorem incAddr_pins_addressBus : (incAddr s).pins.addressBus = incWord s.reg.pc := (rfl)
@[simp] theorem incAddr_reg_a : (incAddr s).reg.a = s.reg.a := (rfl)
@[simp] theorem incAddr_reg_x : (incAddr s).reg.x = s.reg.x := (rfl)
@[simp] theorem incAddr_reg_y : (incAddr s).reg.y = s.reg.y := (rfl)
@[simp] theorem incAddr_reg_sp : (incAddr s).reg.sp = s.reg.sp := (rfl)
@[simp] theorem incAddr_reg_pc : (incAddr s).reg.pc = incWord s.reg.pc := (rfl)
@[simp] theorem incAddr_reg_internal : (incAddr s).reg.internal = s.reg.internal := (rfl)
@[simp] theorem incAddr_queue : (incAddr s).queue = s.queue := (rfl)
@[simp] theorem incAddr_mem : (incAddr s).mem = s.mem := (rfl)
@[simp] theorem incAddr_wave : (incAddr s).wave = s.wave := (rfl)

/-! ### resetAction -/

@[simp] theorem resetAction_nodes : (resetAction s).nodes = s.nodes := (rfl)
@[simp] theorem resetAction_pins_clock : (resetAction s).pins.clock = s.pins.clock := (rfl)
@[simp] theorem resetAction_pins_resetEn : (resetAction s).pins.resetEn = s.pins.resetEn := (rfl)
@[simp] theorem resetAction_pins_dataBus : (resetAction s).pins.dataBus = s.pins.dataBus := (rfl)
@[simp] theorem resetAction_pins_rwb : (resetAction s).pins.rwb = s.pins.rwb := (rfl)
@[simp] theorem resetAction_pins_addressBus : (resetAction s).pins.addressBus = Config.vectorLo := (rfl)
@[simp] theorem resetAction_reg_a : (resetAction s).reg.a = 0 := (rfl)
@[simp] theorem resetAction_reg_x : (resetAction s).reg.x = 0 := (rfl)
@[simp] theorem resetAction_reg_y : (resetAction s).reg.y = 0 := (rfl)
@[simp] theorem resetAction_reg_sp : (resetAction s).reg.sp = Config.spReset := (rfl)
@[simp] theorem resetAction_reg_pc : (resetAction s).reg.pc = s.reg.pc := (rfl)
@[simp] theorem resetAction_reg_internal : (resetAction s).reg.internal = 0 := (rfl)
@[simp] theorem resetAction_queue : (resetAction s).queue = [.rvLo, .rvHi] := (rfl)
@[simp] theorem resetAction_mem : (resetAction s).mem = s.mem := (rfl)
@[simp] theorem resetAction_wave : (resetAction s).wave = s.wave := (rfl)

/-! ### microRvLo -/

@[simp] theorem microRvLo_nodes : (microRvLo s).nodes = s.nodes := (rfl)
@[simp] theorem microRvLo_pins_clock : (microRvLo s).pins.clock = s.pins.clock := (rfl)
@[simp] theorem microRvLo_pins_resetEn : (microRvLo s).pins.resetEn = s.pins.resetEn := (rfl)
@[simp] theorem microRvLo_pins_dataBus : (microRvLo s).pins.dataBus = s.pins.dataBus := (rfl)
@[simp] theorem microRvLo_pins_rwb : (microRvLo s).pins.rwb = s.pins.rwb := (rfl)
@[simp] theorem microRvLo_pins_addressBus : (microRvLo s).pins.addressBus = Config.vectorHi := (rfl)
@[simp] theorem microRvLo_reg_a : (microRvLo s).reg.a = s.reg.a := (rfl)
@[simp] theorem microRvLo_reg_x : (microRvLo s).reg.x = s.reg.x := (rfl)
@[simp] theorem microRvLo_reg_y : (microRvLo s).reg.y = s.reg.y := (rfl)
@[simp] theorem microRvLo_reg_sp : (microRvLo s).reg.sp = s.reg.sp := (rfl)
@[simp] theorem microRvLo_reg_pc : (microRvLo s).reg.pc = setLow s.reg.pc s.pins.dataBus := (rfl)
@[simp] theorem microRvLo_reg_internal : (microRvLo s).reg.internal = s.reg.internal := (rfl)
@[simp] theorem microRvLo_queue : (microRvLo s).queue = s.queue := (rfl)
@[simp] theorem microRvLo_mem : (microRvLo s).mem = s.mem := (rfl)
@[simp] theorem microRvLo_wave : (microRvLo s).wave = s.wave := (rfl)

/-! ### microRvHi -/

@[simp] theorem microRvHi_nodes : (microRvHi s).nodes = s.nodes := (rfl)
@[simp] theorem microRvHi_pins_clock : (microRvHi s).pins.clock = s.pins.clock := (rfl)
@[simp] theorem microRvHi_pins_resetEn : (microRvHi s).pins.resetEn = s.pins.resetEn := (rfl)
@[simp] theorem microRvHi_pins_dataBus : (microRvHi s).pins.dataBus = s.pins.dataBus := (rfl)
@[simp] theorem microRvHi_pins_rwb : (microRvHi s).pins.rwb = s.pins.rwb := (rfl)
@[simp] theorem microRvHi_pins_addressBus : (microRvHi s).pins.addressBus = setHigh s.reg.pc s.pins.dataBus := (rfl)
@[simp] theorem microRvHi_reg_a : (microRvHi s).reg.a = s.reg.a := (rfl)
@[simp] theorem microRvHi_reg_x : (microRvHi s).reg.x = s.reg.x := (rfl)
@[simp] theorem microRvHi_reg_y : (microRvHi s).reg.y = s.reg.y := (rfl)
@[simp] theorem microRvHi_reg_sp : (microRvHi s).reg.sp = s.reg.sp := (rfl)
@[simp] theorem microRvHi_reg_pc : (microRvHi s).reg.pc = setHigh s.reg.pc s.pins.dataBus := (rfl)
@[simp] theorem microRvHi_reg_internal : (microRvHi s).reg.internal = s.reg.internal := (rfl)
@[simp] theorem microRvHi_queue : (microRvHi s).queue = s.queue := (rfl)
@[simp] theorem microRvHi_mem : (microRvHi s).mem = s.mem := (rfl)
@[simp] theorem microRvHi_wave : (microRvHi s).wave = s.wave := (rfl)

/-! ### microLatchLo -/

@[simp] theorem microLatchLo_nodes : (microLatchLo s).nodes = s.nodes := (rfl)
@[simp] theorem microLatchLo_pins_clock : (microLatchLo s).pins.clock = s.pins.clock := (rfl)
@[simp] theorem microLatchLo_pins_resetEn : (microLatchLo s).pins.resetEn = s.pins.resetEn := (rfl)
@[simp] theorem microLatchLo_pins_dataBus : (microLatchLo s).pins.dataBus = s.pins.dataBus := (rfl)
@[simp] theorem microLatchLo_pins_rwb : (microLatchLo s).pins.rwb = s.pins.rwb := (rfl)
@[simp] theorem microLatchLo_pins_addressBus : (microLatchLo s).pins.addressBus = incWord s.reg.pc := (rfl)
@[simp] theorem microLatchLo_reg_a : (microLatchLo s).reg.a = s.reg.a := (rfl)
@[simp] theorem microLatchLo_reg_x : (microLatchLo s).reg.x = s.reg.x := (rfl)
@[simp] theorem microLatchLo_reg_y : (microLatchLo s).reg.y = s.reg.y := (rfl)
@[simp] theorem microLatchLo_reg_sp : (microLatchLo s).reg.sp = s.reg.sp := (rfl)
@[simp] theorem microLatchLo_reg_pc : (microLatchLo s).reg.pc = incWord s.reg.pc := (rfl)
@[simp] theorem microLatchLo_reg_internal : (microLatchLo s).reg.internal =
    setLow s.reg.internal s.pins.dataBus := (rfl)
@[simp] theorem microLatchLo_queue : (microLatchLo s).queue = s.queue := (rfl)
@[simp] theorem microLatchLo_mem : (microLatchLo s).mem = s.mem := (rfl)
@[simp] theorem microLatchLo_wave : (microLatchLo s).wave = s.wave := (rfl)

/-! ### decodeLda -/

@[simp] theorem decodeLda_nodes : (decodeLda s).nodes = s.nodes := (rfl)
@[simp] theorem decodeLda_pins_clock : (decodeLda s).pins.clock = s.pins.clock := (rfl)
@[simp] theorem decodeLda_pins_resetEn : (decodeLda s).pins.resetEn = s.pins.resetEn := (rfl)
@[simp] theorem decodeLda_pins_dataBus : (decodeLda s).pins.dataBus = s.pins.dataBus := (rfl)
@[simp] theorem decodeLda_pins_rwb : (decodeLda s).pins.rwb = s.pins.rwb := (rfl)
@[simp] theorem decodeLda_pins_addressBus : (decodeLda s).pins.addressBus = incWord s.reg.pc := (rfl)
@[simp] theorem decodeLda_reg_a : (decodeLda s).reg.a = s.reg.a := (rfl)
@[simp] theorem decodeLda_reg_x : (decodeLda s).reg.x = s.reg.x := (rfl)
@[simp] theorem decodeLda_reg_y : (decodeLda s).reg.y = s.reg.y := (rfl)
@[simp] theorem decodeLda_reg_sp : (decodeLda s).reg.sp = s.reg.sp := (rfl)
@[simp] theorem decodeLda_reg_pc : (decodeLda s).reg.pc = incWord s.reg.pc := (rfl)
@[simp] theorem decodeLda_reg_internal : (decodeLda s).reg.internal = s.reg.internal := (rfl)
@[simp] theorem decodeLda_queue : (decodeLda s).queue = [.ldA] := (rfl)
@[simp] theorem decodeLda_mem : (decodeLda s).mem = s.mem := (rfl)
@[simp] theorem decodeLda_wave : (decodeLda s).wave = s.wave := (rfl)

/-! ### microLdA -/

@[simp] theorem microLdA_nodes : (microLdA s).nodes = s.nodes := (rfl)
@[simp] theorem microLdA_pins_clock : (microLdA s).pins.clock = s.pins.clock := (rfl)
@[simp] theorem microLdA_pins_resetEn : (microLdA s).pins.resetEn = s.pins.resetEn := (rfl)
@[simp] theorem microLdA_pins_dataBus : (microLdA s).pins.dataBus = s.pins.dataBus := (rfl)
@[simp] theorem microLdA_pins_rwb : (microLdA s).pins.rwb = s.pins.rwb := (rfl)
@[simp] theorem microLdA_pins_addressBus : (microLdA s).pins.addressBus = incWord s.reg.pc := (rfl)
@[simp] theorem microLdA_reg_a : (microLdA s).reg.a = s.pins.dataBus := (rfl)
@[simp] theorem microLdA_reg_x : (microLdA s).reg.x = s.reg.x := (rfl)
@[simp] theorem microLdA_reg_y : (microLdA s).reg.y = s.reg.y := (rfl)
@[simp] theorem microLdA_reg_sp : (microLdA s).reg.sp = s.reg.sp := (rfl)
@[simp] theorem microLdA_reg_pc : (microLdA s).reg.pc = incWord s.reg.pc := (rfl)
@[simp] theorem microLdA_reg_internal : (microLdA s).reg.internal = s.reg.internal := (rfl)
@[simp] theorem microLdA_queue : (microLdA s).queue = s.queue := (rfl)
@[simp] theorem microLdA_mem : (microLdA s).mem = s.mem := (rfl)
@[simp] theorem microLdA_wave : (microLdA s).wave = s.wave := (rfl)

/-! ### decodeAnd -/

@[simp] theorem decodeAnd_nodes : (decodeAnd s).nodes = s.nodes := (rfl)
@[simp] theorem decodeAnd_pins_clock : (decodeAnd s).pins.clock = s.pins.clock := (rfl)
@[simp] theorem decodeAnd_pins_resetEn : (decodeAnd s).pins.resetEn = s.pins.resetEn := (rfl)
@[simp] theorem decodeAnd_pins_dataBus : (decodeAnd s).pins.dataBus = s.pins.dataBus := (rfl)
@[simp] theorem decodeAnd_pins_rwb : (decodeAnd s).pins.rwb = s.pins.rwb := (rfl)
@[simp] theorem decodeAnd_pins_addressBus : (decodeAnd s).pins.addressBus = incWord s.reg.pc := (rfl)
@[simp] theorem decodeAnd_reg_a : (decodeAnd s).reg.a = s.reg.a := (rfl)
@[simp] theorem decodeAnd_reg_x : (decodeAnd s).reg.x = s.reg.x := (rfl)
@[simp] theorem decodeAnd_reg_y : (decodeAnd s).reg.y = s.reg.y := (rfl)
@[simp] theorem decodeAnd_reg_sp : (decodeAnd s).reg.sp = s.reg.sp := (rfl)
@[simp] theorem decodeAnd_reg_pc : (decodeAnd s).reg.pc = incWord s.reg.pc := (rfl)
@[simp] theorem decodeAnd_reg_internal : (decodeAnd s).reg.internal = s.reg.internal := (rfl)
@[simp] theorem decodeAnd_queue : (decodeAnd s).queue = [.andA] := (rfl)
@[simp] theorem decodeAnd_mem : (decodeAnd s).mem = s.mem := (rfl)
@[simp] theorem decodeAnd_wave : (decodeAnd s).wave = s.wave := (rfl)

/-! ### microAndA -/

@[simp] theorem microAndA_nodes : (microAndA s).nodes = s.nodes := (rfl)
@[simp] theorem microAndA_pins_clock : (microAndA s).pins.clock = s.pins.clock := (rfl)
@[simp] theorem microAndA_pins_resetEn : (microAndA s).pins.resetEn = s.pins.resetEn := (rfl)
@[simp] theorem microAndA_pins_dataBus : (microAndA s).pins.dataBus = s.pins.dataBus := (rfl)
@[simp] theorem microAndA_pins_rwb : (microAndA s).pins.rwb = s.pins.rwb := (rfl)
@[simp] theorem microAndA_pins_addressBus : (microAndA s).pins.addressBus = incWord s.reg.pc := (rfl)
@[simp] theorem microAndA_reg_a : (microAndA s).reg.a = andResult s.reg.a s.pins.dataBus := (rfl)
@[simp] theorem microAndA_reg_x : (microAndA s).reg.x = s.reg.x := (rfl)
@[simp] theorem microAndA_reg_y : (microAndA s).reg.y = s.reg.y := (rfl)
@[simp] theorem microAndA_reg_sp : (microAndA s).reg.sp = s.reg.sp := (rfl)
@[simp] theorem microAndA_reg_pc : (microAndA s).reg.pc = incWord s.reg.pc := (rfl)
@[simp] theorem microAndA_reg_internal : (microAndA s).reg.internal = s.reg.internal := (rfl)
@[simp] theorem microAndA_queue : (microAndA s).queue = s.queue := (rfl)
@[simp] theorem microAndA_mem : (microAndA s).mem = s.mem := (rfl)
@[simp] theorem microAndA_wave : (microAndA s).wave = s.wave := (rfl)

/-! ### decodeAsl -/

@[simp] theorem decodeAsl_nodes : (decodeAsl s).nodes = s.nodes := (rfl)
@[simp] theorem decodeAsl_pins_clock : (decodeAsl s).pins.clock = s.pins.clock := (rfl)
@[simp] theorem decodeAsl_pins_resetEn : (decodeAsl s).pins.resetEn = s.pins.resetEn := (rfl)
@[simp] theorem decodeAsl_pins_dataBus : (decodeAsl s).pins.dataBus = s.pins.dataBus := (rfl)
@[simp] theorem decodeAsl_pins_rwb : (decodeAsl s).pins.rwb = s.pins.rwb := (rfl)
@[simp] theorem decodeAsl_pins_addressBus : (decodeAsl s).pins.addressBus = incWord s.reg.pc := (rfl)
@[simp] theorem decodeAsl_reg_a : (decodeAsl s).reg.a = aslResult s.reg.a := (rfl)
@[simp] theorem decodeAsl_reg_x : (decodeAsl s).reg.x = s.reg.x := (rfl)
@[simp] theorem decodeAsl_reg_y : (decodeAsl s).reg.y = s.reg.y := (rfl)
@[simp] theorem decodeAsl_reg_sp : (decodeAsl s).reg.sp = s.reg.sp := (rfl)
@[simp] theorem decodeAsl_reg_pc : (decodeAsl s).reg.pc = incWord s.reg.pc := (rfl)
@[simp] theorem decodeAsl_reg_internal : (decodeAsl s).reg.internal = s.reg.internal := (rfl)
@[simp] theorem decodeAsl_queue : (decodeAsl s).queue = s.queue := (rfl)
@[simp] theorem decodeAsl_mem : (decodeAsl s).mem = s.mem := (rfl)
@[simp] theorem decodeAsl_wave : (decodeAsl s).wave = s.wave := (rfl)

/-! ### decodeJmp -/

@[simp] theorem decodeJmp_nodes : (decodeJmp s).nodes = s.nodes := (rfl)
@[simp] theorem decodeJmp_pins_clock : (decodeJmp s).pins.clock = s.pins.clock := (rfl)
@[simp] theorem decodeJmp_pins_resetEn : (decodeJmp s).pins.resetEn = s.pins.resetEn := (rfl)
@[simp] theorem decodeJmp_pins_dataBus : (decodeJmp s).pins.dataBus = s.pins.dataBus := (rfl)
@[simp] theorem decodeJmp_pins_rwb : (decodeJmp s).pins.rwb = s.pins.rwb := (rfl)
@[simp] theorem decodeJmp_pins_addressBus : (decodeJmp s).pins.addressBus = incWord s.reg.pc := (rfl)
@[simp] theorem decodeJmp_reg_a : (decodeJmp s).reg.a = s.reg.a := (rfl)
@[simp] theorem decodeJmp_reg_x : (decodeJmp s).reg.x = s.reg.x := (rfl)
@[simp] theorem decodeJmp_reg_y : (decodeJmp s).reg.y = s.reg.y := (rfl)
@[simp] theorem decodeJmp_reg_sp : (decodeJmp s).reg.sp = s.reg.sp := (rfl)
@[simp] theorem decodeJmp_reg_pc : (decodeJmp s).reg.pc = incWord s.reg.pc := (rfl)
@[simp] theorem decodeJmp_reg_internal : (decodeJmp s).reg.internal = s.reg.internal := (rfl)
@[simp] theorem decodeJmp_queue : (decodeJmp s).queue = [.latchLo, .latchHiJmp] := (rfl)
@[simp] theorem decodeJmp_mem : (decodeJmp s).mem = s.mem := (rfl)
@[simp] theorem decodeJmp_wave : (decodeJmp s).wave = s.wave := (rfl)

/-! ### microLatchHiJmp -/

@[simp] theorem microLatchHiJmp_nodes : (microLatchHiJmp s).nodes = s.nodes := (rfl)
@[simp] theorem microLatchHiJmp_pins_clock : (microLatchHiJmp s).pins.clock = s.pins.clock := (rfl)
@[simp] theorem microLatchHiJmp_pins_resetEn : (microLatchHiJmp s).pins.resetEn = s.pins.resetEn := (rfl)
@[simp] theorem microLatchHiJmp_pins_dataBus : (microLatchHiJmp s).pins.dataBus = s.pins.dataBus := (rfl)
@[simp] theorem microLatchHiJmp_pins_rwb : (microLatchHiJmp s).pins.rwb = s.pins.rwb := (rfl)
@[simp] theorem microLatchHiJmp_pins_addressBus : (microLatchHiJmp s).pins.addressBus =
    setHigh s.reg.internal s.pins.dataBus := (rfl)
@[simp] theorem microLatchHiJmp_reg_a : (microLatchHiJmp s).reg.a = s.reg.a := (rfl)
@[simp] theorem microLatchHiJmp_reg_x : (microLatchHiJmp s).reg.x = s.reg.x := (rfl)
@[simp] theorem microLatchHiJmp_reg_y : (microLatchHiJmp s).reg.y = s.reg.y := (rfl)
@[simp] theorem microLatchHiJmp_reg_sp : (microLatchHiJmp s).reg.sp = s.reg.sp := (rfl)
@[simp] theorem microLatchHiJmp_reg_pc : (microLatchHiJmp s).reg.pc = setHigh s.reg.internal s.pins.dataBus := (rfl)
@[simp] theorem microLatchHiJmp_reg_internal : (microLatchHiJmp s).reg.internal =
    setHigh s.reg.internal s.pins.dataBus := (rfl)
@[simp] theorem microLatchHiJmp_queue : (microLatchHiJmp s).queue = s.queue := (rfl)
@[simp] theorem microLatchHiJmp_mem : (microLatchHiJmp s).mem = s.mem := (rfl)
@[simp] theorem microLatchHiJmp_wave : (microLatchHiJmp s).wave = s.wave := (rfl)

/-! ### decodeSta -/

@[simp] theorem decodeSta_nodes : (decodeSta s).nodes = s.nodes := (rfl)
@[simp] theorem decodeSta_pins_clock : (decodeSta s).pins.clock = s.pins.clock := (rfl)
@[simp] theorem decodeSta_pins_resetEn : (decodeSta s).pins.resetEn = s.pins.resetEn := (rfl)
@[simp] theorem decodeSta_pins_dataBus : (decodeSta s).pins.dataBus = s.pins.dataBus := (rfl)
@[simp] theorem decodeSta_pins_rwb : (decodeSta s).pins.rwb = s.pins.rwb := (rfl)
@[simp] theorem decodeSta_pins_addressBus : (decodeSta s).pins.addressBus = incWord s.reg.pc := (rfl)
@[simp] theorem decodeSta_reg_a : (decodeSta s).reg.a = s.reg.a := (rfl)
@[simp] theorem decodeSta_reg_x : (decodeSta s).reg.x = s.reg.x := (rfl)
@[simp] theorem decodeSta_reg_y : (decodeSta s).reg.y = s.reg.y := (rfl)
@[simp] theorem decodeSta_reg_sp : (decodeSta s).reg.sp = s.reg.sp := (rfl)
@[simp] theorem decodeSta_reg_pc : (decodeSta s).reg.pc = incWord s.reg.pc := (rfl)
@[simp] theorem decodeSta_reg_internal : (decodeSta s).reg.internal = s.reg.internal := (rfl)
@[simp] theorem decodeSta_queue : (decodeSta s).queue = [.latchLo, .latchHiSta] := (rfl)
@[simp] theorem decodeSta_mem : (decodeSta s).mem = s.mem := (rfl)
@[simp] theorem decodeSta_wave : (decodeSta s).wave = s.wave := (rfl)

/-! ### microLatchHiSta -/

@[simp] theorem microLatchHiSta_nodes : (microLatchHiSta s).nodes = s.nodes := (rfl)
@[simp] theorem microLatchHiSta_pins_clock : (microLatchHiSta s).pins.clock = s.pins.clock := (rfl)
@[simp] theorem microLatchHiSta_pins_resetEn : (microLatchHiSta s).pins.resetEn = s.pins.resetEn := (rfl)
@[simp] theorem microLatchHiSta_pins_dataBus : (microLatchHiSta s).pins.dataBus = s.reg.a := (rfl)
@[simp] theorem microLatchHiSta_pins_rwb : (microLatchHiSta s).pins.rwb = false := (rfl)
@[simp] theorem microLatchHiSta_pins_addressBus : (microLatchHiSta s).pins.addressBus =
    setHigh s.reg.internal s.pins.dataBus := (rfl)
@[simp] theorem microLatchHiSta_reg_a : (microLatchHiSta s).reg.a = s.reg.a := (rfl)
@[simp] theorem microLatchHiSta_reg_x : (microLatchHiSta s).reg.x = s.reg.x := (rfl)
@[simp] theorem microLatchHiSta_reg_y : (microLatchHiSta s).reg.y = s.reg.y := (rfl)
@[simp] theorem microLatchHiSta_reg_sp : (microLatchHiSta s).reg.sp = s.reg.sp := (rfl)
@[simp] theorem microLatchHiSta_reg_pc : (microLatchHiSta s).reg.pc = incWord s.reg.pc := (rfl)
@[simp] theorem microLatchHiSta_reg_internal : (microLatchHiSta s).reg.internal =
    setHigh s.reg.internal s.pins.dataBus := (rfl)
@[simp] theorem microLatchHiSta_queue : (microLatchHiSta s).queue = s.queue := (rfl)
@[simp] theorem microLatchHiSta_mem : (microLatchHiSta s).mem = s.mem := (rfl)
@[simp] theorem microLatchHiSta_wave : (microLatchHiSta s).wave = s.wave := (rfl)

end Sys2Proof.Machine
end

