-- ==== Sys2Proof/Laws/Words.lean ====
section
/-! SUPPORT. The byte lanes of a word and the wrapping increment. -/

namespace Sys2Proof

theorem wordOf_getLsbD (hi lo : Byte) (i : Nat) :
    (wordOf hi lo).getLsbD i = if i < 8 then lo.getLsbD i else hi.getLsbD (i - 8) := BitVec.getLsbD_append

@[simp] theorem lowByte_wordOf (hi lo : Byte) : lowByte (wordOf hi lo) = lo :=
  BitVec.eq_of_getLsbD_eq fun i h => by simp [lowByte, wordOf_getLsbD, h]

@[simp] theorem highByte_wordOf (hi lo : Byte) : highByte (wordOf hi lo) = hi :=
  BitVec.eq_of_getLsbD_eq fun i h => by simp [highByte, wordOf_getLsbD, h]

@[simp] theorem wordOf_bytes (w : Word) : wordOf (highByte w) (lowByte w) = w := by
  apply BitVec.eq_of_getLsbD_eq
  intro i h
  rw [wordOf_getLsbD]
  split
  · next h' => simp [lowByte, h']
  · next h' => simp [highByte, show i - 8 < 8 by omega, show 8 + (i - 8) = i by omega]

@[simp] theorem absoluteAddress_bytes (w : Word) : absoluteAddress (lowByte w) (highByte w) = w := by
  simp [absoluteAddress]

namespace Machine

@[simp] theorem lowByte_setLow (w : Word) (b : Byte) : lowByte (setLow w b) = b := by simp [setLow]
@[simp] theorem highByte_setLow (w : Word) (b : Byte) : highByte (setLow w b) = highByte w := by simp [setLow]
@[simp] theorem lowByte_setHigh (w : Word) (b : Byte) : lowByte (setHigh w b) = lowByte w := by simp [setHigh]
@[simp] theorem highByte_setHigh (w : Word) (b : Byte) : highByte (setHigh w b) = b := by simp [setHigh]

/-- Both lanes written, low one first: the old word has no influence (10_state.md R33). -/
@[simp] theorem setHigh_setLow (w : Word) (lo hi : Byte) : setHigh (setLow w lo) hi = wordOf hi lo := by
  simp [setHigh]

/-- The increment as arithmetic on 0..65535 (40_sequencer.md R120). -/
theorem incWord_toNat (w : Word) : (incWord w).toNat = (w.toNat + 1) % 65536 := by
  simp [incWord, BitVec.toNat_add]

theorem incWord_eq (w : Word) : incWord w = w + 1 := rfl
theorem incWord_twice (w : Word) : incWord (incWord w) = w + 2 := by simp [incWord, BitVec.add_assoc]
theorem incWord_thrice (w : Word) : incWord (incWord (incWord w)) = w + 3 := by simp [incWord, BitVec.add_assoc]

/-- The shift as arithmetic on 0..255 (41_accumulator_ops.md R145 b). -/
theorem aslResult_toNat (v : Byte) : (aslResult v).toNat = (v.toNat * 2) % 256 := by
  simp [aslResult, BitVec.toNat_shiftLeft, Nat.shiftLeft_eq]

end Machine
end Sys2Proof
end

