-- ==== Sys2Proof/Laws/Cycle.lean ====
section
/-! SUPPORT. What the gate, the memory and the processor's write-back leave at the end of a simulation step, what a
simulation step does on each kind of clock sample, and a clock cycle in one equation. -/

namespace Sys2Proof.Machine

/-! ### The three ticks after the engine -/

@[simp] theorem gateOut_same (r : Bool) : gateOut r r = !r := by cases r <;> rfl

/-- The end of every simulation step: write-back, gate, memory. -/
def settle (s : State) : State := memoryTick (gateTick (writeBack s))

/-- The memory at the end of a step: the byte in the latch is stored when the pin says "write" (20_memory.md R61). -/
def settledMem (s : State) : Memory :=
  if s.nodes.cs && !s.pins.rwb then s.mem.write s.pins.addressBus.toNat s.pins.dataBus else s.mem

/-- The data node at the end of a step (20_memory.md R59, R60, R61). -/
def settledData (s : State) : Byte :=
  if s.pins.rwb then (if s.nodes.cs then s.mem.read s.pins.addressBus.toNat else s.nodes.data) else s.pins.dataBus

variable (s : State)

@[simp] theorem settle_pins : (settle s).pins = s.pins := (rfl)
@[simp] theorem settle_reg : (settle s).reg = s.reg := (rfl)
@[simp] theorem settle_queue : (settle s).queue = s.queue := (rfl)
@[simp] theorem settle_wave : (settle s).wave = s.wave := (rfl)
@[simp] theorem settle_nodes_clk : (settle s).nodes.clk = s.nodes.clk := (rfl)
@[simp] theorem settle_nodes_resetEn : (settle s).nodes.resetEn = s.nodes.resetEn := (rfl)
@[simp] theorem settle_nodes_cs : (settle s).nodes.cs = s.nodes.cs := (rfl)
@[simp] theorem settle_nodes_addr : (settle s).nodes.addr = s.pins.addressBus := (rfl)
@[simp] theorem settle_nodes_rwb : (settle s).nodes.rwb = s.pins.rwb := (rfl)
@[simp] theorem settle_nodes_we : (settle s).nodes.we = !s.pins.rwb := by simp [settle]

@[simp] theorem settle_mem : (settle s).mem = settledMem s := by
  cases hc : s.nodes.cs <;> cases hr : s.pins.rwb <;> simp [settle, settledMem, memoryAction, hc, hr]

@[simp] theorem settle_nodes_data : (settle s).nodes.data = settledData s := by
  cases hc : s.nodes.cs <;> cases hr : s.pins.rwb <;> simp [settle, settledData, memoryAction, hc, hr]

variable {s}

/-- While reading, a step leaves the memory alone. -/
theorem settledMem_reading (h : s.pins.rwb = true) : settledMem s = s.mem := by simp [settledMem, h]

theorem settledData_reading (h : s.pins.rwb = true) (hc : s.nodes.cs = true) :
    settledData s = s.mem.read s.pins.addressBus.toNat := by simp [settledData, h, hc]

theorem settledData_writing (h : s.pins.rwb = false) : settledData s = s.pins.dataBus := by simp [settledData, h]

/-- What a read of the memory gives after a step: the latch at the address of a selected write, else as before. -/
theorem read_settledMem (b : Nat) : (settledMem s).read b =
    if s.nodes.cs = true ∧ s.pins.rwb = false ∧ b = s.pins.addressBus.toNat then s.pins.dataBus
    else s.mem.read b := by
  cases hc : s.nodes.cs <;> cases hr : s.pins.rwb <;> simp [settledMem, Memory.read_write, hc, hr]

/-- A write cycle that is still held stores the byte the memory already has: no read changes (43_store.md R162). -/
theorem read_settledMem_held
    (h : s.pins.rwb = false → s.nodes.cs = true → s.mem.read s.pins.addressBus.toNat = s.pins.dataBus) (b : Nat) :
    (settledMem s).read b = s.mem.read b := by
  rw [read_settledMem]
  split
  · next hw => rw [hw.2.2, h hw.2.1 hw.1]
  · rfl

/-- Every step keeps the canonical form of the memory. -/
theorem wf_settledMem (h : s.mem.wf) : (settledMem s).wf := by
  unfold settledMem
  split
  · exact Memory.wf_write h (Memory.word_in_space _) _
  · exact h

/-- At the end of a step the memory, if selected, holds at the address shown the byte that is on the data node. -/
theorem read_settledMem_shown (h : s.nodes.cs = true) :
    (settledMem s).read s.pins.addressBus.toNat = settledData s := by
  cases hr : s.pins.rwb <;> simp [settledMem, settledData, h, hr]

/-! ### A simulation step on each kind of clock sample -/

variable (s)

/-- The environment and the edge detector on a low clock sample. -/
def clockLow (r : Bool) : State :=
  { s with nodes := { s.nodes with clk := false, resetEn := r }, pins := { s.pins with clock := false } }

/-- The environment, the edge detector and the sampling on a high clock sample after a low one. -/
def clockHigh (r : Bool) : State :=
  { s with
    nodes := { s.nodes with clk := true, resetEn := r }
    pins := { s.pins with clock := true, resetEn := r
                          dataBus := if s.pins.rwb then s.nodes.data else s.pins.dataBus } }

theorem simStepWith_eq (engine : State → State) (lv : Levels) :
    simStepWith engine lv s = settle (processorEdge engine (drive lv s)) := (rfl)

variable {s}

/-- A sample of the level last seen: only the write-back, the gate and the memory act (40_sequencer.md R111). -/
theorem simStepWith_same {lv : Levels} (engine : State → State) (h : lv.clock = s.pins.clock) :
    simStepWith engine lv s = settle (drive lv s) := by
  simp [simStepWith_eq, processorEdge, h]

/-- A low sample, duplicate or falling edge: the engine does not run (R111, R112). -/
theorem simStepWith_low (engine : State → State) (r : Bool) (s : State) :
    simStepWith engine { clock := false, resetEn := r } s = settle (clockLow s r) := by
  cases hc : s.pins.clock
  · rw [simStepWith_same engine hc.symm]
    simp [clockLow, drive, ← hc]
  · simp [simStepWith_eq, processorEdge, hc, clockLow, drive]

/-- A high sample after a low one: sampling and one engine cycle (R113). -/
theorem simStepWith_rising {r : Bool} (engine : State → State) (h : s.pins.clock = false) :
    simStepWith engine { clock := true, resetEn := r } s = settle (engine (clockHigh s r)) := by
  simp [simStepWith_eq, processorEdge, h, clockHigh, drive, sampleInputs]
  rfl

/-- A high sample after a high one: the engine does not run (R111). -/
theorem simStepWith_high_duplicate {r : Bool} (engine : State → State) (h : s.pins.clock = true) :
    simStepWith engine { clock := true, resetEn := r } s = settle (drive { clock := true, resetEn := r } s) :=
  simStepWith_same engine h.symm

/-! ### A clock cycle in one equation -/

variable (s)

/-- The state the engine finds at the rising edge of a clock cycle that starts from `s`. -/
def atEdge (r : Bool) : State := clockHigh (settle (clockLow s r)) r

@[simp] theorem atEdge_nodes_clk (r : Bool) : (atEdge s r).nodes.clk = true := (rfl)
@[simp] theorem atEdge_nodes_resetEn (r : Bool) : (atEdge s r).nodes.resetEn = r := (rfl)
@[simp] theorem atEdge_nodes_cs (r : Bool) : (atEdge s r).nodes.cs = s.nodes.cs := (rfl)
@[simp] theorem atEdge_nodes_data (r : Bool) : (atEdge s r).nodes.data = settledData s :=
  settle_nodes_data (clockLow s r)
@[simp] theorem atEdge_nodes_addr (r : Bool) : (atEdge s r).nodes.addr = s.pins.addressBus := (rfl)
@[simp] theorem atEdge_nodes_rwb (r : Bool) : (atEdge s r).nodes.rwb = s.pins.rwb := (rfl)
@[simp] theorem atEdge_nodes_we (r : Bool) : (atEdge s r).nodes.we = !s.pins.rwb :=
  settle_nodes_we (clockLow s r)
@[simp] theorem atEdge_pins_clock (r : Bool) : (atEdge s r).pins.clock = true := (rfl)
@[simp] theorem atEdge_pins_resetEn (r : Bool) : (atEdge s r).pins.resetEn = r := (rfl)
@[simp] theorem atEdge_pins_rwb (r : Bool) : (atEdge s r).pins.rwb = s.pins.rwb := (rfl)
@[simp] theorem atEdge_pins_addressBus (r : Bool) : (atEdge s r).pins.addressBus = s.pins.addressBus := (rfl)
@[simp] theorem atEdge_reg (r : Bool) : (atEdge s r).reg = s.reg := (rfl)
@[simp] theorem atEdge_queue (r : Bool) : (atEdge s r).queue = s.queue := (rfl)
@[simp] theorem atEdge_wave (r : Bool) : (atEdge s r).wave = s.wave := (rfl)
@[simp] theorem atEdge_mem (r : Bool) : (atEdge s r).mem = settledMem s := settle_mem (clockLow s r)

/-- The latch at the rising edge: the byte on the bus while reading, the byte kept after a write cycle; in both cases
the byte that `settledData` says is on the data node (R113, R126). -/
@[simp] theorem atEdge_pins_dataBus (r : Bool) : (atEdge s r).pins.dataBus = settledData s := by
  cases hr : s.pins.rwb <;> simp [atEdge, clockHigh, clockLow, settledData, hr]

/-- What a clock cycle takes from the state it starts in: the clock latch, the sampled inputs and the nodes other than
`cs` matter only through `settledData` and `settledMem`. -/
theorem atEdge_congr {s s' : State} (r : Bool) (hw : s.pins.rwb = s'.pins.rwb)
    (ha : s.pins.addressBus = s'.pins.addressBus) (hc : s.nodes.cs = s'.nodes.cs) (hr : s.reg = s'.reg)
    (hq : s.queue = s'.queue) (hv : s.wave = s'.wave) (hd : settledData s = settledData s')
    (hm : settledMem s = settledMem s') : atEdge s r = atEdge s' r := by
  refine State.ext (Nodes.ext ?_ ?_ ?_ ?_ ?_ ?_ ?_) (Pins.ext ?_ ?_ ?_ ?_ ?_) ?_ ?_ ?_ ?_ <;> simp [*]

theorem lowStep_eq : lowStep s = settle (clockLow s true) := simStepWith_low id true s

/-- A clock cycle whose engine cycle is `act`. -/
theorem busCycle_eq (act : State → State) : busCycle act s = settle (act (forceRead (atEdge s true))) := by
  rw [busCycle, lowStep_eq, runHigh, simStepWith_rising]
  · rfl
  · rfl

theorem suppliedCycle_eq (b : Byte) (act : State → State) :
    suppliedCycle b act s = settle (act (setLatch b (forceRead (atEdge s true)))) := busCycle_eq s _

/-- Supplying the byte the bus brings anyway changes nothing. -/
theorem suppliedCycle_of_bus (act : State → State) :
    suppliedCycle (settledData s) act s = busCycle act s := by
  rw [suppliedCycle_eq, busCycle_eq]
  congr 2
  simp only [setLatch, forceRead]
  congr 2
  simp

/-- A clock cycle of the whole system. -/
theorem clockCycle_eq (r : Bool) : clockCycle r s = settle (engineCycle (atEdge s r)) := by
  show simStepWith engineCycle _ (simStepWith engineCycle _ s) = _
  rw [simStepWith_low, simStepWith_rising]
  · rfl
  · rfl

end Sys2Proof.Machine
end

