-- ==== Sys2Proof/Laws/Decode.lean ====
section
/-! SUPPORT. The decoder, opcode by opcode. -/

namespace Sys2Proof

@[simp] theorem decodeThree_lda (b1 b2 : Byte) : decodeThree opLda b1 b2 = .ldaImm b1 := rfl
@[simp] theorem decodeThree_and (b1 b2 : Byte) : decodeThree opAnd b1 b2 = .andImm b1 := rfl
@[simp] theorem decodeThree_asl (b1 b2 : Byte) : decodeThree opAsl b1 b2 = .aslA := rfl
@[simp] theorem decodeThree_jmp (b1 b2 : Byte) : decodeThree opJmp b1 b2 = .jmpAbs (absoluteAddress b1 b2) := rfl
@[simp] theorem decodeThree_sta (b1 b2 : Byte) : decodeThree opSta b1 b2 = .staAbs (absoluteAddress b1 b2) := rfl

/-- A byte that is none of the five opcodes, taken apart (30_encoding.md R96). -/
theorem recognised_false_iff (op : Byte) :
    recognised op = false ↔ op ≠ opLda ∧ op ≠ opAnd ∧ op ≠ opAsl ∧ op ≠ opJmp ∧ op ≠ opSta := by
  simp [recognised, and_assoc]

theorem recognised_true_iff (op : Byte) :
    recognised op = true ↔ op = opLda ∨ op = opAnd ∨ op = opAsl ∨ op = opJmp ∨ op = opSta := by
  simp [recognised, or_assoc]

/-- The `UNDEF` row is well-formed for exactly the bytes that are not recognised (R101). -/
theorem undef_wf_iff (op : Byte) : (Instr.undef op).wf = !recognised op := by
  simp only [Instr.wf, recognised, opLda, opAnd, opAsl, opJmp, opSta, bne, Bool.not_or]

theorem decodeThree_undef {op : Byte} (h : recognised op = false) (b1 b2 : Byte) :
    decodeThree op b1 b2 = .undef op := by
  obtain ⟨h1, h2, h3, h4, h5⟩ := (recognised_false_iff op).mp h
  simp [decodeThree, h1, h2, h3, h4, h5]

theorem operandCount_undef {op : Byte} (h : recognised op = false) : operandCount op = 0 := by
  obtain ⟨h1, h2, h3, h4, h5⟩ := (recognised_false_iff op).mp h
  simp [operandCount, h1, h2, h3, h4, h5]

@[simp] theorem operandCount_lda : operandCount opLda = 1 := rfl
@[simp] theorem operandCount_and : operandCount opAnd = 1 := rfl
@[simp] theorem operandCount_asl : operandCount opAsl = 0 := rfl
@[simp] theorem operandCount_jmp : operandCount opJmp = 2 := rfl
@[simp] theorem operandCount_sta : operandCount opSta = 2 := rfl

/-- Every opcode byte is one of the five or is not recognised: the case split of the decoder. -/
theorem opcode_cases (op : Byte) :
    op = opLda ∨ op = opAnd ∨ op = opAsl ∨ op = opJmp ∨ op = opSta ∨ recognised op = false := by
  by_cases h : recognised op = true
  · rcases (recognised_true_iff op).mp h with h | h | h | h | h <;> simp [h]
  · simp [Bool.eq_false_iff.mpr h]

end Sys2Proof
end

