-- ==== Sys2Proof/Laws/Engine.lean ====
section
/-! SUPPORT. The engine: what its three families are, what none of them touches, and a clock cycle at an instruction
boundary and inside an instruction. -/

namespace Sys2Proof.Machine

/-! ### Decode dispatch -/

@[simp] theorem decodeOpcode_lda (s : State) : decodeOpcode opLda s = decodeLda s := rfl
@[simp] theorem decodeOpcode_and (s : State) : decodeOpcode opAnd s = decodeAnd s := rfl
@[simp] theorem decodeOpcode_asl (s : State) : decodeOpcode opAsl s = decodeAsl s := rfl
@[simp] theorem decodeOpcode_jmp (s : State) : decodeOpcode opJmp s = decodeJmp s := rfl
@[simp] theorem decodeOpcode_sta (s : State) : decodeOpcode opSta s = decodeSta s := rfl

/-- Every byte that is not one of the five takes the reset action (60_exceptions.md R170). -/
theorem decodeOpcode_unrecognised {op : Byte} (h : recognised op = false) (s : State) :
    decodeOpcode op s = resetAction s := by
  obtain ⟨h1, h2, h3, h4, h5⟩ := (recognised_false_iff op).mp h
  simp [decodeOpcode, h1, h2, h3, h4, h5, decodeUndef]

/-! ### What no engine cycle touches: the nodes, the memory, the pending levels and the two sampled inputs -/

theorem decodeOpcode_frame (op : Byte) (s : State) :
    (decodeOpcode op s).nodes = s.nodes ∧ (decodeOpcode op s).mem = s.mem ∧ (decodeOpcode op s).wave = s.wave
      ∧ (decodeOpcode op s).pins.clock = s.pins.clock ∧ (decodeOpcode op s).pins.resetEn = s.pins.resetEn
      ∧ (decodeOpcode op s).pins.rwb = s.pins.rwb ∧ (decodeOpcode op s).pins.dataBus = s.pins.dataBus := by
  rcases opcode_cases op with rfl | rfl | rfl | rfl | rfl | h
  case inr.inr.inr.inr.inr => simp [decodeOpcode_unrecognised h]
  all_goals simp

theorem runMicroOp_frame (m : MicroOp) (s : State) :
    (runMicroOp m s).nodes = s.nodes ∧ (runMicroOp m s).mem = s.mem ∧ (runMicroOp m s).wave = s.wave
      ∧ (runMicroOp m s).pins.clock = s.pins.clock ∧ (runMicroOp m s).pins.resetEn = s.pins.resetEn
      ∧ (runMicroOp m s).queue = s.queue := by
  cases m <;> simp [runMicroOp]

/-! ### The three families (40_sequencer.md R115) -/

theorem engineCycle_reset {s : State} (h : s.pins.resetEn = false) :
    engineCycle s = resetAction (forceRead s) := by
  simp [engineCycle, engineFamily, h]

theorem engineCycle_queued {s : State} {m : MicroOp} {q : List MicroOp} (hr : s.pins.resetEn = true)
    (hq : s.queue = m :: q) : engineCycle s = runMicroOp m (popFront (forceRead s)) := by
  simp [engineCycle, engineFamily, hr, hq]

theorem engineCycle_decode {s : State} (hr : s.pins.resetEn = true) (hq : s.queue = []) :
    engineCycle s = decodeOpcode s.pins.dataBus (forceRead s) := by
  simp [engineCycle, engineFamily, hr, hq]

/-- Everything an engine cycle can be. -/
theorem engineCycle_cases (s : State) :
    (s.pins.resetEn = false ∧ engineCycle s = resetAction (forceRead s))
      ∨ (s.pins.resetEn = true ∧ ∃ m q, s.queue = m :: q ∧ engineCycle s = runMicroOp m (popFront (forceRead s)))
      ∨ (s.pins.resetEn = true ∧ s.queue = [] ∧ engineCycle s = decodeOpcode s.pins.dataBus (forceRead s)) := by
  cases hr : s.pins.resetEn
  · exact .inl ⟨rfl, engineCycle_reset hr⟩
  · cases hq : s.queue with
    | nil => exact .inr (.inr ⟨rfl, rfl, engineCycle_decode hr hq⟩)
    | cons m q => exact .inr (.inl ⟨rfl, m, q, rfl, engineCycle_queued hr hq⟩)

/-- An engine cycle changes only `reg`, `queue` and the three output latches of `pins` (10_state.md R41). -/
theorem engineCycle_frame (s : State) :
    (engineCycle s).nodes = s.nodes ∧ (engineCycle s).mem = s.mem ∧ (engineCycle s).wave = s.wave
      ∧ (engineCycle s).pins.clock = s.pins.clock ∧ (engineCycle s).pins.resetEn = s.pins.resetEn := by
  rcases engineCycle_cases s with ⟨-, h⟩ | ⟨-, m, q, -, h⟩ | ⟨-, -, h⟩ <;> rw [h]
  · simp
  · simpa using ⟨(runMicroOp_frame m _).1, (runMicroOp_frame m _).2.1, (runMicroOp_frame m _).2.2.1,
      (runMicroOp_frame m _).2.2.2.1, (runMicroOp_frame m _).2.2.2.2.1⟩
  · obtain ⟨h1, h2, h3, h4, h5, -, -⟩ := decodeOpcode_frame s.pins.dataBus (forceRead s)
    exact ⟨h1, h2, h3, h4, h5⟩

@[simp] theorem engineCycle_nodes (s : State) : (engineCycle s).nodes = s.nodes := (engineCycle_frame s).1
@[simp] theorem engineCycle_mem (s : State) : (engineCycle s).mem = s.mem := (engineCycle_frame s).2.1
@[simp] theorem engineCycle_wave (s : State) : (engineCycle s).wave = s.wave := (engineCycle_frame s).2.2.1
@[simp] theorem engineCycle_clock (s : State) : (engineCycle s).pins.clock = s.pins.clock :=
  (engineCycle_frame s).2.2.2.1
@[simp] theorem engineCycle_resetEn (s : State) : (engineCycle s).pins.resetEn = s.pins.resetEn :=
  (engineCycle_frame s).2.2.2.2

/-! ### Clock cycles with reset-enable true or false -/

/-- A cycle with reset-enable false is the reset action, whatever the engine was doing (60_exceptions.md R175). -/
theorem clockCycle_reset (s : State) :
    clockCycle false s = settle (resetAction (forceRead (atEdge s false))) := by
  rw [clockCycle_eq, engineCycle_reset (by simp)]

/-- A cycle at an instruction boundary decodes the byte the rising edge finds in the latch (R98, R121, R126). -/
theorem clockCycle_boundary {s : State} (h : s.queue = []) :
    clockCycle true s = busCycle (decodeOpcode (settledData s)) s := by
  rw [clockCycle_eq, engineCycle_decode (by simp) (by simpa using h), busCycle_eq]
  simp

/-- A cycle inside an instruction runs the front micro-op (R115, R123). -/
theorem clockCycle_queued {s : State} {m : MicroOp} {q : List MicroOp} (h : s.queue = m :: q) :
    clockCycle true s = busCycle (fun t => runMicroOp m (popFront t)) s := by
  rw [clockCycle_eq, engineCycle_queued (by simp) (by simpa using h), busCycle_eq]

/-- After such a cycle the rest of the queue is left. -/
theorem clockCycle_queued_queue {s : State} {m : MicroOp} {q : List MicroOp} (h : s.queue = m :: q) :
    (clockCycle true s).queue = q := by
  rw [clockCycle_queued h, busCycle_eq]
  simp [(runMicroOp_frame m _).2.2.2.2.2, h]

@[simp] theorem clockCycle_wave (r : Bool) (s : State) : (clockCycle r s).wave = s.wave := by
  simp [clockCycle_eq]

/-! ### What the coming decode cycle sees -/

@[simp] theorem lowStep_reg (s : State) : (lowStep s).reg = s.reg := by simp [lowStep_eq, clockLow]
@[simp] theorem opcodeByte_lowStep (s : State) : opcodeByte (lowStep s) = settledData s := by
  cases hr : s.pins.rwb <;> simp [opcodeByte, lowStep_eq, clockLow, settledData, hr]

theorem busRead_lowStep (s : State) (a : Word) :
    busRead (lowStep s) a = if s.nodes.cs then (settledMem s).read a.toNat else settledData s := by
  simp [busRead, lowStep_eq]
  rfl

theorem fetch_eq (s : State) : fetch s = decodeThree (settledData s)
    (busRead (lowStep s) (incWord s.reg.pc)) (busRead (lowStep s) (incWord (incWord s.reg.pc))) := by
  simp [fetch]

end Sys2Proof.Machine
end

