-- ==== Sys2Proof/Laws/PerInstr.lean ====
section
/-! SUPPORT. A statement about every instruction, constructor by constructor. -/

namespace Sys2Proof.Laws

/-- The encoding of a well-formed instruction is its opcode byte and then as many bytes as that opcode's format has
(30_encoding.md R90, R97). -/
def EncodedLength.Statement (i : Instr) : Prop :=
  i.wf = true → ∃ op operands, encode i = op :: operands ∧ operands.length = operandCount op

theorem EncodedLength.ldaImm (imm : Byte) : EncodedLength.Statement (.ldaImm imm) :=
  fun _ => ⟨opLda, [imm], rfl, rfl⟩

theorem EncodedLength.andImm (imm : Byte) : EncodedLength.Statement (.andImm imm) :=
  fun _ => ⟨opAnd, [imm], rfl, rfl⟩

theorem EncodedLength.aslA : EncodedLength.Statement .aslA :=
  fun _ => ⟨opAsl, [], rfl, rfl⟩

theorem EncodedLength.jmpAbs (addr : Word) : EncodedLength.Statement (.jmpAbs addr) :=
  fun _ => ⟨opJmp, [lowByte addr, highByte addr], rfl, rfl⟩

theorem EncodedLength.staAbs (addr : Word) : EncodedLength.Statement (.staAbs addr) :=
  fun _ => ⟨opSta, [lowByte addr, highByte addr], rfl, rfl⟩

theorem EncodedLength.undef (op : Byte) : EncodedLength.Statement (.undef op) := fun h => by
  rw [undef_wf_iff, Bool.not_eq_true'] at h
  exact ⟨op, [], rfl, (operandCount_undef h).symm⟩

end Sys2Proof.Laws
end

