-- ==== Sys2Proof/Laws/Step.lean ====
section
/-! SUPPORT. What a step can be: a simulation step, the owed micro-ops, or one instruction. -/

namespace Sys2Proof.Machine

theorem step_pending {s : State} {lv : Levels} {rest : List Levels} (h : s.wave = lv :: rest) :
    step s = .next (simStep lv { s with wave := rest }) := by
  simp [step, h]

theorem step_owed {s : State} (hw : s.wave = []) (hq : s.queue ≠ []) : step s = .next (drainQueue s) := by
  cases h : s.queue with
  | nil => exact absurd h hq
  | cons m q => simp [step, hw, h]

theorem step_boundary {s : State} (hw : s.wave = []) (hq : s.queue = []) : step s = exec (fetch s) s := by
  simp [step, hw, hq]

/-- Everything a step can be. -/
theorem step_cases (s : State) :
    (∃ lv rest, s.wave = lv :: rest ∧ step s = .next (simStep lv { s with wave := rest }))
      ∨ (s.wave = [] ∧ s.queue ≠ [] ∧ step s = .next (drainQueue s))
      ∨ (s.wave = [] ∧ s.queue = [] ∧ step s = exec (fetch s) s) := by
  cases hw : s.wave with
  | cons lv rest => exact .inl ⟨lv, rest, rfl, step_pending hw⟩
  | nil =>
    by_cases hq : s.queue = []
    · exact .inr (.inr ⟨rfl, hq, step_boundary hw hq⟩)
    · exact .inr (.inl ⟨rfl, hq, step_owed hw hq⟩)

/-! ### Runs of simulation steps and of clock cycles -/

@[simp] theorem runWave_nil (s : State) : runWave [] s = s := rfl
@[simp] theorem runWave_cons (lv : Levels) (ls : List Levels) (s : State) :
    runWave (lv :: ls) s = runWave ls (simStep lv s) := rfl

theorem runWave_append (l1 l2 : List Levels) (s : State) :
    runWave (l1 ++ l2) s = runWave l2 (runWave l1 s) := by
  induction l1 generalizing s with
  | nil => rfl
  | cons lv l1 ih => simp [ih]

/-- `n` running clock cycles are the simulation steps of the running waveform. -/
theorem runCycles_eq_runWave (n : Nat) (s : State) : runCycles n s = runWave (runningWave n) s := by
  induction n generalizing s with
  | zero => rfl
  | succ n ih => simp [runCycles, runningWave, runWave_append, clockCycle, ih]

@[simp] theorem simStep_wave (lv : Levels) (s : State) : (simStep lv s).wave = s.wave := by
  simp only [simStep, simStepWith_eq, settle_wave, processorEdge]
  split
  · simp
  · split <;> simp


@[simp] theorem runWave_wave (ls : List Levels) (s : State) : (runWave ls s).wave = s.wave := by
  induction ls generalizing s with
  | nil => rfl
  | cons lv ls ih => simp [ih]

/-! ### The pending levels influence nothing but which step comes next -/

theorem decodeOpcode_pending (op : Byte) (s : State) (w : List Levels) :
    decodeOpcode op { s with wave := w } = { decodeOpcode op s with wave := w } := by
  rcases opcode_cases op with rfl | rfl | rfl | rfl | rfl | h
  case inr.inr.inr.inr.inr =>
    rw [decodeOpcode_unrecognised h, decodeOpcode_unrecognised h]
    rfl
  all_goals rfl

theorem engineCycle_pending (s : State) (w : List Levels) :
    engineCycle { s with wave := w } = { engineCycle s with wave := w } := by
  rcases engineCycle_cases s with ⟨hr, h⟩ | ⟨hr, m, q, hq, h⟩ | ⟨hr, hq, h⟩ <;> rw [h]
  · rw [engineCycle_reset (s := { s with wave := w }) hr]
    rfl
  · rw [engineCycle_queued (s := { s with wave := w }) hr hq]
    cases m <;> rfl
  · rw [engineCycle_decode (s := { s with wave := w }) hr hq, ← decodeOpcode_pending]
    rfl

theorem simStep_pending (lv : Levels) (s : State) (w : List Levels) :
    simStep lv { s with wave := w } = { simStep lv s with wave := w } := by
  obtain ⟨c, r⟩ := lv
  cases c
  · simp only [simStep, simStepWith_low]
    rfl
  · cases hc : s.pins.clock
    · simp only [simStep]
      rw [simStepWith_rising (s := { s with wave := w }) engineCycle hc, simStepWith_rising engineCycle hc]
      show settle (engineCycle { clockHigh s r with wave := w }) = _
      rw [engineCycle_pending]
      rfl
    · simp only [simStep]
      rw [simStepWith_high_duplicate (s := { s with wave := w }) engineCycle hc,
        simStepWith_high_duplicate engineCycle hc]
      rfl

end Sys2Proof.Machine
end

