-- ==== Sys2Proof/Tests/Slice0.lean ====
section
/-! SUPPORT. Tests: the WellFormed smoke, decoding of words written out from the encodings, one-step tests from the
vectors of 95_test_vectors.md, and for every statement with hypotheses a concrete state and operands that meet them. -/

namespace Sys2Proof.Tests

open Sys2Proof.Machine

/-! ### Small states -/

/-- An instruction boundary at which the bus shows `pc` and the memory drives the byte there. -/
def boundary (pc : Word) (a : Byte) (mem : Memory) : State where
  nodes := { clk := true, resetEn := true, data := mem.read pc.toNat, addr := pc, rwb := true, we := false, cs := true }
  pins := { clock := true, resetEn := true, dataBus := 0, rwb := true, addressBus := pc }
  reg := { a := a, x := 0, y := 0, sp := 0xFF#8, pc := pc, internal := 0 }
  queue := []
  mem := mem
  wave := []

/-- The boundary after a store of `a` at `addr`: the write cycle is still held. -/
def afterStore (pc addr : Word) (a : Byte) (mem : Memory) : State where
  nodes := { clk := true, resetEn := true, data := a, addr := addr, rwb := false, we := true, cs := true }
  pins := { clock := true, resetEn := true, dataBus := a, rwb := false, addressBus := addr }
  reg := { a := a, x := 0, y := 0, sp := 0xFF#8, pc := pc, internal := addr }
  queue := []
  mem := mem.write addr.toNat a
  wave := []

/-- The same state with the memory not selected. -/
def unselected (s : State) : State := { s with nodes := { s.nodes with cs := false, data := 0 } }

/-- The same state with the clock low. -/
def clockIsLow (s : State) : State :=
  { s with nodes := { s.nodes with clk := false }, pins := { s.pins with clock := false } }

/-- A field of the state that a step leads to. -/
def after {α : Type} (o : Host.Outcome State Fault Refusal) (f : State → α) : Option α :=
  match o with
  | .next t => some (f t)
  | _ => none

/-- The program of 95_test_vectors.md P1, with its reset vector. -/
def sourceProgram : Memory :=
  [(0x8000, 0xA9#8), (0x8001, 0xAB#8), (0x8002, 0x29#8), (0x8003, 0xA0#8), (0x8004, 0x0A#8), (0x8005, 0x8D#8),
   (0x8007, 0x01#8), (0xFFFD, 0x80#8)]

/-! ### WellFormed: the one check, on an ill-formed term for each byte it excludes -/

theorem test_wf_refuses_lda_as_undef : (Instr.undef 0xA9#8).wf = false := by decide
theorem test_wf_refuses_and_as_undef : (Instr.undef 0x29#8).wf = false := by decide
theorem test_wf_refuses_asl_as_undef : (Instr.undef 0x0A#8).wf = false := by decide
theorem test_wf_refuses_jmp_as_undef : (Instr.undef 0x4C#8).wf = false := by decide
theorem test_wf_refuses_sta_as_undef : (Instr.undef 0x8D#8).wf = false := by decide
theorem test_wf_accepts_other_bytes : (Instr.undef 0xEA#8).wf = true ∧ (Instr.undef 0x00#8).wf = true := by decide

/-! ### Decoding: bits written out from opcode_table.json, R90 to R95 and R99 -/

theorem test_decode_lda : decode [0b10101001#8, 0b10101011#8] = .ok (.ldaImm 0xAB#8, []) := by decide
theorem test_decode_and : decode [0b00101001#8, 0b10100000#8] = .ok (.andImm 0xA0#8, []) := by decide
theorem test_decode_asl : decode [0b00001010#8, 0x77#8] = .ok (.aslA, [0x77#8]) := by decide
theorem test_decode_jmp_low_byte_first :
    decode [0b01001100#8, 0x34#8, 0x12#8] = .ok (.jmpAbs 0x1234#16, []) := by decide
theorem test_decode_sta_low_byte_first :
    decode [0b10001101#8, 0x00#8, 0x01#8] = .ok (.staAbs 0x0100#16, []) := by decide
theorem test_decode_undef : decode [0xEA#8, 0xA9#8] = .ok (.undef 0xEA#8, [0xA9#8]) := by decide
theorem test_decode_rejects_short_lists :
    decode [] = .error .noOpcode ∧ decode [0xA9#8] = .error .noOperandByte ∧ decode [0x4C#8] = .error .noOperandByte ∧
    decode [0x8D#8, 0x00#8] = .error .noHighAddressByte := by decide
theorem test_table_word : decodeTableWord 24 0x80024C = some (.jmpAbs 0x8002#16) ∧
    decodeTableWord 8 0xA9 = some (.ldaImm 0x00#8) ∧ decodeTableWord 16 0xFFFFA029 = some (.andImm 0xA0#8) := by decide

/-! ### One instruction each, from the vectors of 95_test_vectors.md -/

/-- V30. -/
theorem test_lda : after (step (boundary 0x8000#16 0x00#8 [(0x8000, 0xA9#8), (0x8001, 0xAB#8)]))
    (fun t => (t.reg.a, t.reg.pc, t.pins.addressBus)) = some (0xAB#8, 0x8002#16, 0x8002#16) := by decide

/-- V33: the operand is at 0x0000. -/
theorem test_lda_wraps : after (step (boundary 0xFFFF#16 0x00#8 [(0x0000, 0x81#8), (0xFFFF, 0xA9#8)]))
    (fun t => (t.reg.a, t.reg.pc)) = some (0x81#8, 0x0001#16) := by decide

/-- V40 row 7. -/
theorem test_and : after (step (boundary 0x8000#16 0xCC#8 [(0x8000, 0x29#8), (0x8001, 0xAA#8)]))
    (fun t => (t.reg.a, t.reg.pc)) = some (0x88#8, 0x8002#16) := by decide

/-- V50: bit 7 is lost. -/
theorem test_asl : after (step (boundary 0x8000#16 0x81#8 [(0x8000, 0x0A#8)]))
    (fun t => (t.reg.a, t.reg.pc, t.queue)) = some (0x02#8, 0x8001#16, []) := by decide

/-- V52. -/
theorem test_asl_at_the_top : after (step (boundary 0xFFFF#16 0x21#8 [(0xFFFF, 0x0A#8)]))
    (fun t => (t.reg.a, t.reg.pc, t.pins.addressBus)) = some (0x42#8, 0x0000#16, 0x0000#16) := by decide

/-- V60. -/
theorem test_jmp : after (step (boundary 0x8003#16 0x5A#8 [(0x8003, 0x4C#8), (0x8004, 0x02#8), (0x8005, 0x80#8)]))
    (fun t => (t.reg.pc, t.reg.internal, t.reg.a)) = some (0x8002#16, 0x8002#16, 0x5A#8) := by decide

/-- V63: the operand bytes wrap. -/
theorem test_jmp_wraps : after (step (boundary 0xFFFE#16 0x00#8 [(0x0000, 0x12#8), (0xFFFE, 0x4C#8), (0xFFFF, 0x34#8)]))
    (fun t => (t.reg.pc, t.pins.addressBus)) = some (0x1234#16, 0x1234#16) := by decide

/-- V70. -/
theorem test_sta : after (step (boundary 0x8005#16 0x40#8 [(0x8005, 0x8D#8), (0x8007, 0x01#8)]))
    (fun t => (t.mem.read 0x0100, t.reg.pc, t.pins.addressBus, t.nodes.rwb)) =
      some (0x40#8, 0x8008#16, 0x0100#16, false) := by decide

/-- V71: the cycle after the store shifts the stored 0x0A; the byte at 0x8005 is skipped. -/
theorem test_stored_byte_runs : after (step (afterStore 0x8005#16 0x0200#16 0x0A#8 [(0x8005, 0xA9#8)]))
    (fun t => (t.reg.a, t.reg.pc)) = some (0x14#8, 0x8006#16) := by decide

/-- V80 and V22 row 1: an unrecognised byte, to the end of the vector fetch. -/
theorem test_undef : after (step (boundary 0x9000#16 0x12#8 [(0x9000, 0xEA#8), (0xFFFD, 0x80#8)]))
    (fun t => (t.reg.a, t.reg.sp, t.reg.pc, t.pins.addressBus)) =
      some (0x00#8, 0xFF#8, 0x8000#16, 0x8000#16) := by decide

/-! ### Reset, signals and the placing of a word -/

/-- The values of R42 that the spec fixes. -/
theorem test_reset_values :
    (State.reset.reg.a, State.reset.reg.sp, State.reset.queue, State.reset.pins.addressBus, State.reset.pins.rwb,
      State.reset.pins.clock) = (0x00#8, 0xFF#8, [.rvLo, .rvHi], 0xFFFC#16, true, true) := by decide

/-- P1 cycles 1 to 4, as simulation steps: reset, two vector cycles, decode of the first opcode. -/
theorem test_reset_sequence :
    let t := runWave (cycleLevels false ++ runningWave 3) (State.powerOn sourceProgram [])
    (t.reg.pc, t.pins.dataBus, t.nodes.data, t.queue) = (0x8001#16, 0xA9#8, 0xAB#8, [.ldA]) := by decide

/-- V12: a low reset-enable between two rising edges is never seen. -/
theorem test_reset_pulse_between_edges :
    let s := runWave [⟨false, true⟩, ⟨false, false⟩, ⟨false, false⟩, ⟨true, true⟩]
      (boundary 0x8000#16 0x5A#8 [(0x8000, 0x0A#8)])
    (s.reg.a, s.pins.resetEn) = (0xB4#8, true) := by decide

/-- V17: power-on with the pin at "write" loses the byte at 0x0000. -/
theorem test_power_on_writing :
    let s := State.powerOn [(0x0000, 0x77#8)] []
    (simStep ⟨false, false⟩ { s with pins := { s.pins with rwb := false } }).mem.read 0 = 0x00#8 ∧
    (simStep ⟨false, false⟩ s).mem.read 0 = 0x77#8 := by decide

/-- V23 in short: a reset pin in mid-instruction discards the queued store. -/
theorem test_reset_discards_the_queue :
    let s := runCycles 2 (boundary 0x8000#16 0x5A#8 [(0x8000, 0x8D#8), (0x8002, 0x01#8)])
    let t := clockCycle false s
    (s.queue, t.queue, t.mem.read 0x0100, t.pins.rwb) = ([.latchHiSta], [.rvLo, .rvHi], 0x00#8, true) := by decide

/-- The word placed is the instruction the next step runs. -/
theorem test_with_fetch_word :
    after (step (State.reset.withFetchWord 16 0xABA9)) (fun t => (t.reg.a, t.reg.pc)) = some (0xAB#8, 0x0002#16) ∧
    fetch (State.reset.withFetchWord 24 0x01008D) = .staAbs 0x0100#16 := by decide

/-! ### Witnesses: concrete inputs that meet the hypotheses of a statement, every clause of it -/

theorem witness_DecodeReadsWhatEncodeWrites :
    (Instr.ldaImm 0xFF#8).wf = true ∧ (Instr.jmpAbs 0xFFFF#16).wf = true ∧ (Instr.undef 0xEA#8).wf = true := by decide

theorem witness_DecodedBytesEncodeBack : decode [0x8D#8, 0xFC#8, 0xFF#8, 0xEA#8] = .ok (.staAbs 0xFFFC#16, [0xEA#8]) := by
  decide

theorem witness_OtherBytesAreUnrecognised :
    (0xA8#8 ≠ 0xA9#8 ∧ 0xA8#8 ≠ 0x29#8 ∧ 0xA8#8 ≠ 0x0A#8 ∧ 0xA8#8 ≠ 0x4C#8 ∧ 0xA8#8 ≠ 0x8D#8) ∧
    decode [0xA8#8] = .ok (.undef 0xA8#8, []) ∧ decode [0x0A#8] ≠ .ok (.undef 0x0A#8, []) := by decide

theorem witness_MemoryTickTable : (0 : Nat) ≠ (0xFFFF#16).toNat := by decide

theorem witness_DuplicateSampleOnlyWritesBack :
    (⟨true, false⟩ : Levels).clock = (boundary 0 0 []).pins.clock ∧
    (⟨false, true⟩ : Levels).clock = (clockIsLow (boundary 0 0 [])).pins.clock := by decide

theorem witness_FallingEdgeOnlyMovesTheClockLatch :
    (boundary 0 0 []).pins.clock = true ∧ (⟨false, false⟩ : Levels).clock = false := by decide

theorem witness_RisingEdgeSamplesThenRunsTheEngine :
    (clockIsLow (boundary 0 0 [])).pins.clock = false ∧ (⟨true, true⟩ : Levels).clock = true ∧
    ¬((boundary 0 0 []).pins.clock = false ∧ (⟨false, false⟩ : Levels).clock = true) := by decide

theorem witness_WriteBackOnEveryTick :
    (processorTick engineCycle (drive ⟨true, true⟩ (afterStore 0x8005#16 0x0200#16 0x0A#8 []))).pins.rwb = false ∧
    (processorTick engineCycle (drive ⟨false, true⟩ (boundary 0 0 []))).pins.rwb = true := by decide

theorem witness_EnginePriority :
    let s := { boundary 0 0 [] with queue := [.ldA] }
    ({ s with pins := { s.pins with resetEn := false } } : State).pins.resetEn = false ∧
    (s.pins.resetEn = true ∧ s.queue = .ldA :: []) ∧
    (boundary 0 0 []).pins.resetEn = true ∧ (boundary 0 0 []).queue = [] := by decide

theorem witness_WriteOnlyAfterStoreMicroOp :
    let s := { boundary 0 0 [] with queue := [.latchHiSta] }
    s.pins.resetEn = true ∧ s.queue = .latchHiSta :: [] ∧ (engineCycle s).pins.rwb = false ∧
    (engineCycle (boundary 0 0 [])).pins.rwb = true := by decide

theorem witness_IncAddrWraps : (boundary 0xFFFF#16 0 []).reg.pc = 0xFFFF#16 := by decide

theorem witness_LoadMicroOp :
    let s := { boundary 0 0 [] with queue := [.ldA] }
    (boundary 0 0 []).queue = [] ∧ s.queue = .ldA :: [] ∧ s.pins.resetEn = true ∧
    ({ s with pins := { s.pins with resetEn := false } } : State).pins.resetEn = false := by decide

theorem witness_AndMicroOp : (boundary 0x8000#16 0xAB#8 []).queue = [] := by decide

theorem witness_JumpMicroOp : (boundary 0xFFFF#16 0 []).queue = [] ∧ (0x4C#8 : Byte) = 0x4C#8 := by decide

theorem witness_StoreMicroOp :
    MicroOp.latchLo ≠ .latchHiSta ∧ (boundary 0xFFFF#16 0 []).queue = [] ∧ (0x8D#8 : Byte) = 0x8D#8 := by decide

theorem witness_PinResetFromAnyState :
    WriteDone (afterStore 0x8005#16 0xFFFC#16 0x77#8 sourceProgram) ∧
    WriteDone (runCycles 2 (boundary 0x8005#16 0x40#8 sourceProgram)) := by decide

theorem witness_ResetSequenceFetchesTheVector :
    (afterStore 0x8005#16 0xFFFC#16 0x77#8 sourceProgram).nodes.cs = true ∧
    WriteDone (afterStore 0x8005#16 0xFFFC#16 0x77#8 sourceProgram) := by decide

theorem witness_ResetHeldLowNeverEnds :
    (∀ lv ∈ cycleLevels false, lv.resetEn = false) ∧ 0 < risingEdges false (cycleLevels false) := by decide

theorem witness_LoadImmediateResult : WriteDone (afterStore 0xFFFF#16 0x0200#16 0xA9#8 []) := by decide

theorem witness_AndImmediateResult : WriteDone (boundary 0xFFFE#16 0xAB#8 []) := by decide

theorem witness_ShiftLeftResult : WriteDone (boundary 0xFFFF#16 0x80#8 []) := by decide

theorem witness_JumpResult : WriteDone (boundary 0xFFFE#16 0x00#8 []) := by decide

theorem witness_StoreResult :
    WriteDone (boundary 0xFFFF#16 0x40#8 []) ∧ (boundary 0xFFFF#16 0x40#8 []).nodes.cs = true ∧
    WriteDone (unselected (boundary 0xFFFF#16 0x40#8 [])) ∧
    (unselected (boundary 0xFFFF#16 0x40#8 [])).nodes.cs = false ∧ (0 : Nat) ≠ (0xFFFF#16).toNat := by decide

theorem witness_UnrecognisedOpcodeResult :
    WriteDone (afterStore 0x8005#16 0xFFFC#16 0x77#8 []) ∧
    (afterStore 0x8005#16 0xFFFC#16 0x77#8 []).nodes.cs = true := by decide

theorem witness_LoadImmediateCycles :
    let s := boundary 0xFFFF#16 0x00#8 [(0x0000, 0x81#8), (0xFFFF, 0xA9#8)]
    FetchesAtPc s ∧ s.mem.read s.reg.pc.toNat = 0xA9#8 := by decide

theorem witness_AndImmediateCycles :
    let s := fun imm => boundary 0xFFFF#16 0x5A#8 [(0x0000, imm), (0xFFFF, 0x29#8)]
    (∀ imm ∈ [0xFF#8, 0x00#8, 0x5A#8],
      FetchesAtPc (s imm) ∧ (s imm).mem.read (s imm).reg.pc.toNat = 0x29#8 ∧
      (s imm).mem.read ((s imm).reg.pc + 1).toNat = imm) := by decide

theorem witness_ShiftLeftCycle :
    let s := boundary 0xFFFF#16 0x80#8 [(0xFFFF, 0x0A#8)]
    FetchesAtPc s ∧ s.mem.read s.reg.pc.toNat = 0x0A#8 ∧ 6 < 7 := by decide

theorem witness_JumpCycles :
    let s := boundary 0xFFFE#16 0x00#8 [(0x0000, 0x12#8), (0xFFFE, 0x4C#8), (0xFFFF, 0x34#8)]
    FetchesAtPc s ∧ s.mem.read s.reg.pc.toNat = 0x4C#8 := by decide

theorem witness_StoreCycles :
    let s := boundary 0xFFFE#16 0xA9#8 [(0x0000, 0x20#8), (0xFFFE, 0x8D#8), (0xFFFF, 0x10#8)]
    FetchesAtPc s ∧ s.mem.read s.reg.pc.toNat = 0x8D#8 ∧ 0 ≠ (wordOf 0x20#8 0x10#8).toNat := by decide

theorem witness_UnrecognisedOpcodeCycles :
    let s := boundary 0xFFFF#16 0x12#8 [(0xFFFF, 0xEA#8)]
    FetchesAtPc s ∧ recognised (s.mem.read s.reg.pc.toNat) = false := by decide

theorem witness_StepRunsTheDecodedInstruction :
    let s := boundary 0x8005#16 0x40#8 sourceProgram
    FetchesAtPc s ∧
    decode [s.mem.read s.reg.pc.toNat, s.mem.read (s.reg.pc + 1).toNat, s.mem.read (s.reg.pc + 2).toNat] =
      .ok (.staAbs 0x0100#16, []) := by decide

theorem witness_StoredByteIsTheNextOpcode :
    let s := boundary 0x8002#16 0x4C#8 [(0x8002, 0x8D#8), (0x8004, 0x02#8)]
    s.wave = [] ∧ s.nodes.cs = true ∧ ∃ t, exec (.staAbs 0x0200#16) s = .next t :=
  ⟨rfl, rfl, _, rfl⟩

theorem witness_StepFollowsTheBus :
    AtBoundary (afterStore 0x8005#16 0x0200#16 0x4C#8 []) ∧ AtBoundary (boundary 0xFFFF#16 0 []) := by decide

theorem witness_SimulationStepsAgreeWithStep :
    State.reset.wave = [] ∧ State.reset.queue ≠ [] ∧ (boundary 0 0 []).wave = [] ∧ (boundary 0 0 []).queue = [] := by
  decide

theorem witness_SequencerStaysConsistent :
    SequencerConsistent (afterStore 0x8005#16 0x0200#16 0x0A#8 []) ∧
    SequencerConsistent (runCycles 1 (boundary 0x8005#16 0x40#8 sourceProgram)) ∧
    ∃ t, step (afterStore 0x8005#16 0x0200#16 0x0A#8 []) = .next t :=
  ⟨by decide, by decide, _, rfl⟩

theorem witness_MemoryStaysCanonical :
    sourceProgram.wf ∧ ∃ t, step (boundary 0x8005#16 0x40#8 sourceProgram) = .next t :=
  ⟨by decide, _, rfl⟩

theorem witness_EveryStepSettlesTheBus : ∃ t, step (boundary 0x8005#16 0x40#8 sourceProgram) = .next t := ⟨_, rfl⟩

theorem witness_IndexRegistersKeepTheirReset :
    IndexAtReset (boundary 0x8005#16 0x40#8 sourceProgram) ∧
    ∃ t, step (boundary 0x8005#16 0x40#8 sourceProgram) = .next t :=
  ⟨by decide, _, rfl⟩

theorem witness_NothingMovesWithoutARisingEdge :
    let s := afterStore 0x8005#16 0x0200#16 0x0A#8 []
    BusSettled s ∧ risingEdges s.pins.clock [⟨true, false⟩, ⟨false, true⟩, ⟨false, false⟩] = 0 := by decide

theorem witness_MemoryChangesOnlyByStore :
    let s := boundary 0x8005#16 0x40#8 sourceProgram
    let s' := boundary 0x8004#16 0x40#8 sourceProgram
    (AtBoundary s ∧ WriteDone s ∧ fetch s = .staAbs 0x0100#16) ∧
    (AtBoundary s' ∧ WriteDone s' ∧ fetch s' = .aslA) ∧ 0x00FF ≠ (0x0100#16).toNat ∧
    (∃ t, step s = .next t) ∧ ∃ t, step s' = .next t :=
  ⟨by decide, by decide, by decide, ⟨_, rfl⟩, _, rfl⟩

theorem witness_IndexRegistersInfluenceNothing :
    let s := boundary 0x8005#16 0x40#8 sourceProgram
    let s' := { s with reg := { s.reg with x := 0x34#8, y := 0x56#8, sp := 0x78#8 } }
    s ≠ s' ∧ withoutIndex s = withoutIndex s' ∧ ∃ t, step s = .next t :=
  ⟨by decide, by decide, _, rfl⟩

theorem witness_OldScratchLatchInfluencesNothing :
    (boundary 0x8005#16 0x40#8 sourceProgram).queue = [] ∧
    ∃ t, step (boundary 0x8005#16 0x40#8 sourceProgram) = .next t := ⟨rfl, _, rfl⟩

theorem witness_VectorFetchForgetsTheOldPc : State.reset.wave = [] ∧ State.reset.queue = [.rvLo, .rvHi] := by decide

/-- V22 row 5: the vector points at itself. -/
theorem witness_VectorAtUnrecognisedByteLoops :
    let s := boundary 0x8000#16 0x12#8 [(0xFFFC, 0xFC#8), (0xFFFD, 0xFF#8)]
    ∃ t, exec (.undef 0x00#8) s = .next t ∧ t.wave = [] ∧ t.nodes.cs = true ∧
      recognised (t.mem.read t.reg.pc.toNat) = false :=
  ⟨_, rfl, by decide, by decide, by decide⟩

/-- V61. -/
theorem witness_JumpToItselfIdles :
    let s := boundary 0x8006#16 0x00#8 [(0x8006, 0x4C#8), (0x8007, 0x06#8), (0x8008, 0x80#8)]
    FetchesAtPc s ∧ s.mem.read s.reg.pc.toNat = 0x4C#8 ∧ s.mem.read (s.reg.pc + 1).toNat = lowByte s.reg.pc ∧
    s.mem.read (s.reg.pc + 2).toNat = highByte s.reg.pc ∧ ∃ t, step s = .next t :=
  ⟨by decide, by decide, by decide, by decide, _, rfl⟩

theorem witness_StoreRedirectsTheVector :
    let s := boundary 0x8002#16 0x77#8 sourceProgram
    WriteDone s ∧ s.nodes.cs = true ∧
    (∃ t u, exec (.undef 0x77#8) t = .next u ∧ exec (.staAbs 0xFFFC#16) s = .next t) ∧
    ∃ t u, exec (.undef 0x77#8) t = .next u ∧ exec (.staAbs 0xFFFD#16) s = .next t :=
  ⟨by decide, by decide, ⟨_, _, rfl, rfl⟩, _, _, rfl, rfl⟩

theorem witness_UnselectedMemoryNeverActs :
    let s := unselected (boundary 0x8000#16 0x40#8 sourceProgram)
    s.nodes.cs = false ∧ AtBoundary s ∧ s.pins.rwb = true ∧ s.nodes.data = 0x00#8 ∧ ∃ t, step s = .next t :=
  ⟨by decide, by decide, by decide, by decide, _, rfl⟩

end Sys2Proof.Tests
end

section
/-! Proofs of the scope statements (00_scope.md): a step without pending levels is the clock cycles of the running
reference waveform, and pending levels are simulation steps. -/

namespace Sys2Proof.Machine

/-! ### The byte on the bus from one cycle to the next -/

/-- The memory's tick at the end of a step leaves on the bus the byte that the next low half finds there. -/
@[simp] theorem settledData_settle (s : State) : settledData (settle s) = settledData s := by
  cases hr : s.pins.rwb
  · simp [settledData, hr]
  · cases hc : s.nodes.cs
    · simp [settledData, hr, hc]
    · rw [settledData_reading (s := settle s) hr hc, settle_mem]
      exact read_settledMem_shown hc

/-- What an engine action does that advances `pc` and addresses the byte there (40_sequencer.md R120), with the
read/write-bar, the nodes and the memory left alone. -/
structure Advances (act : State → State) : Prop where
  nodes (t : State) : (act t).nodes = t.nodes
  mem (t : State) : (act t).mem = t.mem
  rwb (t : State) : (act t).pins.rwb = t.pins.rwb
  pc (t : State) : (act t).reg.pc = incWord t.reg.pc
  shows (t : State) : (act t).pins.addressBus = incWord t.reg.pc

theorem advances_decodeLda : Advances decodeLda := by constructor <;> simp
theorem advances_decodeAnd : Advances decodeAnd := by constructor <;> simp
theorem advances_decodeJmp : Advances decodeJmp := by constructor <;> simp
theorem advances_decodeSta : Advances decodeSta := by constructor <;> simp
theorem advances_latchLo : Advances (fun t => runMicroOp .latchLo (popFront t)) := by
  constructor <;> simp [runMicroOp]

section
variable {act : State → State} (hact : Advances act) (b : Byte) (s : State)
include hact

theorem suppliedCycle_pc : (suppliedCycle b act s).reg.pc = incWord s.reg.pc := by
  simp [suppliedCycle_eq, hact.pc]

/-- After an advancing cycle the bus brings the byte at the advanced `pc`. -/
theorem settledData_suppliedCycle :
    settledData (suppliedCycle b act s) = busRead (lowStep s) (incWord s.reg.pc) := by
  rw [suppliedCycle_eq, settledData_settle, busRead_lowStep]
  simp [settledData, hact.rwb, hact.nodes, hact.mem, hact.shows]

/-- An advancing cycle reads, so later reads bring what they would have brought before it. -/
theorem busRead_suppliedCycle (a : Word) :
    busRead (lowStep (suppliedCycle b act s)) a = busRead (lowStep s) a := by
  have hcs : (suppliedCycle b act s).nodes.cs = s.nodes.cs := by simp [suppliedCycle_eq, hact.nodes]
  have hmem : settledMem (suppliedCycle b act s) = settledMem s := by
    simp [suppliedCycle_eq, settledMem_reading, hact.rwb, hact.mem]
  rw [busRead_lowStep, busRead_lowStep, hcs, hmem, settledData_suppliedCycle hact, busRead_lowStep]
  split <;> rfl

end

/-! ### The cycles of the engine, with the bytes that the bus brings supplied to them -/

theorem clockCycle_decode_supplied {s : State} {op : Byte} (hq : s.queue = []) (hop : settledData s = op) :
    clockCycle true s = suppliedCycle op (decodeOpcode op) s := by
  rw [clockCycle_boundary hq, ← hop, suppliedCycle_of_bus]

theorem clockCycle_queued_supplied {s : State} {m : MicroOp} {q : List MicroOp} {b : Byte} (hq : s.queue = m :: q)
    (hb : settledData s = b) : clockCycle true s = suppliedCycle b (fun t => runMicroOp m (popFront t)) s := by
  rw [clockCycle_queued hq, ← hb, suppliedCycle_of_bus]

theorem suppliedCycle_queue {act : State → State} {q : List MicroOp} (hq : ∀ t, (act t).queue = q) (b : Byte)
    (s : State) : (suppliedCycle b act s).queue = q := by
  rw [suppliedCycle_eq, settle_queue, hq]

section
variable {s : State} {op : Byte} {dec : State → State} (hq : s.queue = []) (hop : settledData s = op)
  (hdec : decodeOpcode op = dec) (hadv : Advances dec)
include hq hop hdec hadv

/-- The two cycles of an instruction with one operand byte. -/
theorem runCycles_one_operand {m : MicroOp} (hm : ∀ t, (dec t).queue = [m]) :
    runCycles 2 s = suppliedCycle (busRead (lowStep s) (incWord s.reg.pc)) (fun t => runMicroOp m (popFront t))
      (suppliedCycle op dec s) := by
  have cycle1 : clockCycle true s = suppliedCycle op dec s := hdec ▸ clockCycle_decode_supplied hq hop
  have cycle2 := clockCycle_queued_supplied (suppliedCycle_queue hm op s) (settledData_suppliedCycle hadv op s)
  simp only [runCycles, cycle1, cycle2]

/-- The three cycles of an instruction with two operand bytes. -/
theorem runCycles_two_operands {m : MicroOp} (hm : ∀ t, (dec t).queue = [.latchLo, m]) :
    runCycles 3 s =
      suppliedCycle (busRead (lowStep s) (incWord (incWord s.reg.pc))) (fun t => runMicroOp m (popFront t))
        (suppliedCycle (busRead (lowStep s) (incWord s.reg.pc)) (fun t => microLatchLo (popFront t))
          (suppliedCycle op dec s)) := by
  have cycle1 : clockCycle true s = suppliedCycle op dec s := hdec ▸ clockCycle_decode_supplied hq hop
  have queue1 := suppliedCycle_queue hm op s
  have cycle2 := clockCycle_queued_supplied queue1 (settledData_suppliedCycle hadv op s)
  have queue2 := clockCycle_queued_queue queue1
  have data2 := settledData_suppliedCycle advances_latchLo (busRead (lowStep s) (incWord s.reg.pc))
    (suppliedCycle op dec s)
  rw [busRead_suppliedCycle hadv, suppliedCycle_pc hadv] at data2
  rw [cycle2] at queue2
  have cycle3 := clockCycle_queued_supplied queue2 data2
  simp only [runCycles, cycle1, cycle2, cycle3]
  rfl

end

/-- The three cycles of an unrecognised opcode: the reset action and the two vector micro-ops (60_exceptions.md
R170). -/
theorem runCycles_undef {s : State} {op : Byte} (hq : s.queue = []) (hop : settledData s = op)
    (hu : recognised op = false) :
    runCycles 3 s = busCycle (fun t => microRvHi (popFront t))
      (busCycle (fun t => microRvLo (popFront t)) (suppliedCycle op decodeUndef s)) := by
  have hdec : decodeOpcode op = decodeUndef := funext (decodeOpcode_unrecognised hu)
  have cycle1 : clockCycle true s = suppliedCycle op decodeUndef s := hdec ▸ clockCycle_decode_supplied hq hop
  have queue1 := suppliedCycle_queue (act := decodeUndef) resetAction_queue op s
  have cycle2 := clockCycle_queued queue1
  have queue2 := clockCycle_queued_queue queue1
  rw [cycle2] at queue2
  have cycle3 := clockCycle_queued queue2
  simp only [runCycles, cycle1, cycle2, cycle3]
  rfl

/-! ### One instruction is its clock cycles -/

/-- At an instruction boundary, what the fetched instruction means is what the engine does over the bus in as many
clock cycles as the instruction has. -/
theorem exec_fetch_eq_runCycles {s : State} (hq : s.queue = []) :
    exec (fetch s) s = .next (runCycles (cycleCount (fetch s)) s) := by
  rw [fetch_eq]
  rcases opcode_cases (settledData s) with hop | hop | hop | hop | hop | hop
  · rw [hop, decodeThree_lda, cycleCount, runCycles_one_operand hq hop (funext decodeOpcode_lda)
      advances_decodeLda decodeLda_queue]
    rfl
  · rw [hop, decodeThree_and, cycleCount, runCycles_one_operand hq hop (funext decodeOpcode_and)
      advances_decodeAnd decodeAnd_queue]
    rfl
  · rw [hop, decodeThree_asl, cycleCount, runCycles, clockCycle_decode_supplied hq hop]
    rfl
  · rw [hop, decodeThree_jmp, cycleCount, runCycles_two_operands hq hop (funext decodeOpcode_jmp)
      advances_decodeJmp decodeJmp_queue]
    simp [exec, execJmpAbs, absoluteAddress, runMicroOp]
  · rw [hop, decodeThree_sta, cycleCount, runCycles_two_operands hq hop (funext decodeOpcode_sta)
      advances_decodeSta decodeSta_queue]
    simp [exec, execStaAbs, absoluteAddress, runMicroOp]
  · rw [decodeThree_undef hop, cycleCount, runCycles_undef hq rfl hop]
    rfl

/-- A step without pending levels is clock cycles of the running waveform, at a boundary and inside an instruction. -/
theorem step_eq_runCycles {s : State} (hw : s.wave = []) :
    step s = .next (runCycles (if s.queue = [] then cycleCount (fetch s) else s.queue.length) s) := by
  split
  · next hq => rw [step_boundary hw hq, exec_fetch_eq_runCycles hq]
  · next hq => rw [step_owed hw hq, drainQueue]

/-! ### Runs of the core over pending levels -/

theorem run_succ_of_next {M : Host.Core} {s t : M.State} (n : Nat) (h : M.step s = .next t) :
    M.run (n + 1) s = M.run n t := by
  simp only [Host.Core.run, h]

/-- The core takes the pending levels one simulation step each and is left with none. -/
theorem run_pending_levels (levels : List Levels) (s : State) :
    Host.Core.run core levels.length { s with wave := levels } = .next { runWave levels s with wave := [] } := by
  induction levels generalizing s with
  | nil => rfl
  | cons lv rest ih =>
    have hstep : step { s with wave := lv :: rest } = .next { simStep lv s with wave := rest } := by
      rw [step_pending rfl, ← simStep_pending]
    calc Host.Core.run core (rest.length + 1) { s with wave := lv :: rest }
      _ = Host.Core.run core rest.length { simStep lv s with wave := rest } :=
          run_succ_of_next (M := core) rest.length hstep
      _ = .next { runWave rest (simStep lv s) with wave := [] } := ih (simStep lv s)

theorem runningWave_length (n : Nat) : (runningWave n).length = 2 * n := by
  induction n with
  | zero => rfl
  | succ n ih => simp [runningWave, cycleLevels, ih]; omega

/-- With `n` cycles of the running waveform pending, `2 * n` steps of the core are `n` clock cycles. -/
theorem run_runningWave {s : State} (hw : s.wave = []) (n : Nat) :
    Host.Core.run core (2 * n) { s with wave := runningWave n } = .next (runCycles n s) := by
  have hwave : (runWave (runningWave n) s).wave = [] := by rw [runWave_wave, hw]
  rw [← runningWave_length, run_pending_levels, runCycles_eq_runWave, ← hwave]

/-- Settles O39: both sides are the same number of clock cycles of the whole system. -/
theorem simulationStepsAgreeWithStep : Obligations.SimulationStepsAgreeWithStep := by
  intro s hw n
  exact (run_runningWave hw n).trans (step_eq_runCycles hw).symm

/-- Settles O40, by induction on the pending levels. -/
theorem pendingLevelsAreSimulationSteps : Obligations.PendingLevelsAreSimulationSteps :=
  run_pending_levels

end Sys2Proof.Machine
end

section
/-! Proofs of the state statements (10_state.md): what every step keeps, and which fields of the state influence
nothing.
Every step is a run of simulation steps, so an invariant, or a relation between two states, that one simulation step
keeps is kept by every step. -/

namespace Sys2Proof.Machine

/-! ### Every step is a run of simulation steps -/

/-- The level pairs of the simulation steps that one step takes: the oldest pending pair, or the clock cycles of the
running waveform up to the next boundary. -/
def stepLevels (s : State) : List Levels :=
  match s.wave with
  | lv :: _ => [lv]
  | [] => runningWave (if s.queue = [] then cycleCount (fetch s) else s.queue.length)

theorem step_eq_runWave (s : State) :
    step s = .next (runWave (stepLevels s) { s with wave := s.wave.tail }) := by
  cases hw : s.wave with
  | cons lv rest => simp [step_pending hw, stepLevels, hw]
  | nil =>
    have hs : { s with wave := [] } = s := by rw [← hw]
    rw [step_eq_runCycles hw, runCycles_eq_runWave, List.tail_nil, hs]
    simp only [stepLevels, hw]

theorem runWave_keeps {P : State → Prop} (hsim : ∀ lv s, P s → P (simStep lv s)) (ls : List Levels) {s : State}
    (hs : P s) : P (runWave ls s) := by
  induction ls generalizing s with
  | nil => exact hs
  | cons lv ls ih => exact ih (hsim lv s hs)

/-- The induction behind every invariant: one that each simulation step keeps, and in which the pending levels have no
part, is kept by every step. -/
theorem step_keeps {P : State → Prop} (hwave : ∀ s w, P s → P { s with wave := w })
    (hsim : ∀ lv s, P s → P (simStep lv s)) {s t : State} (hs : P s) (hstep : step s = .next t) : P t := by
  rw [step_eq_runWave] at hstep
  cases hstep
  exact runWave_keeps hsim _ (hwave s _ hs)

/-- Of the registers, only `pc` has a part in which simulation steps a step takes. -/
theorem stepLevels_of_pc {s : State} {r : Regs} (h : r.pc = s.reg.pc) :
    stepLevels { s with reg := r } = stepLevels s := by
  have hfetch : fetch { s with reg := r } = fetch s := by
    simp only [fetch_eq, busRead_lowStep, h]
    rfl
  simp only [stepLevels, hfetch]

/-- Everything a simulation step can be (40_sequencer.md R111 to R113). -/
theorem simStep_cases (lv : Levels) (s : State) :
    simStep lv s = settle (clockLow s lv.resetEn) ∨ simStep lv s = settle (drive lv s)
      ∨ simStep lv s = settle (engineCycle (clockHigh s lv.resetEn)) := by
  obtain ⟨c, r⟩ := lv
  cases c with
  | false => exact .inl (simStepWith_low engineCycle r s)
  | true =>
    cases hc : s.pins.clock with
    | false => exact .inr (.inr (simStepWith_rising engineCycle hc))
    | true => exact .inr (.inl (simStepWith_high_duplicate engineCycle hc))

/-- A relation between two states that every part of a simulation step keeps and that decides which simulation steps
come next. -/
structure PartsRespect (R : State → State → Prop) : Prop where
  levels {s s' : State} (h : R s s') : stepLevels s = stepLevels s' ∧ s.wave = s'.wave
  pending {s s' : State} (w : List Levels) (h : R s s') : R { s with wave := w } { s' with wave := w }
  clock {s s' : State} (h : R s s') : s.pins.clock = s'.pins.clock
  drive {s s' : State} (lv : Levels) (h : R s s') : R (drive lv s) (drive lv s')
  low {s s' : State} (r : Bool) (h : R s s') : R (clockLow s r) (clockLow s' r)
  high {s s' : State} (r : Bool) (h : R s s') : R (clockHigh s r) (clockHigh s' r)
  engine {s s' : State} (h : R s s') : R (engineCycle s) (engineCycle s')
  settle {s s' : State} (h : R s s') : R (settle s) (settle s')

section
variable {R : State → State → Prop} (hR : PartsRespect R)
include hR

theorem simStep_respects (lv : Levels) {s s' : State} (h : R s s') : R (simStep lv s) (simStep lv s') := by
  obtain ⟨c, r⟩ := lv
  simp only [simStep]
  cases c with
  | false =>
    rw [simStepWith_low, simStepWith_low]
    exact hR.settle (hR.low r h)
  | true =>
    cases hc : s.pins.clock with
    | false =>
      rw [simStepWith_rising engineCycle hc, simStepWith_rising engineCycle (hR.clock h ▸ hc)]
      exact hR.settle (hR.engine (hR.high r h))
    | true =>
      rw [simStepWith_high_duplicate engineCycle hc, simStepWith_high_duplicate engineCycle (hR.clock h ▸ hc)]
      exact hR.settle (hR.drive _ h)

theorem runWave_respects (ls : List Levels) {s s' : State} (h : R s s') : R (runWave ls s) (runWave ls s') := by
  induction ls generalizing s s' with
  | nil => exact h
  | cons lv ls ih => exact ih (simStep_respects hR lv h)

theorem step_respects {s s' t : State} (h : R s s') (hstep : step s = .next t) :
    ∃ t', step s' = .next t' ∧ R t t' := by
  obtain ⟨hlevels, hwave⟩ := hR.levels h
  rw [step_eq_runWave] at hstep
  cases hstep
  refine ⟨_, step_eq_runWave s', ?_⟩
  rw [← hlevels, ← hwave]
  exact runWave_respects hR _ (hR.pending _ h)

end

/-! ### The memory stays canonical -/

theorem simStep_keeps_wf (lv : Levels) (s : State) (h : s.mem.wf) : (simStep lv s).mem.wf := by
  rcases simStep_cases lv s with hs | hs | hs <;> rw [hs, settle_mem] <;> apply wf_settledMem
  · exact h
  · exact h
  · rw [engineCycle_mem]
    exact h

/-- Settles O43: the only change of the memory is a byte stored at the end of a simulation step. -/
theorem memoryStaysCanonical : Obligations.MemoryStaysCanonical := fun _ _ =>
  step_keeps (P := fun s => s.mem.wf) (fun _ _ h => h) simStep_keeps_wf

/-! ### The sequencer stays consistent -/

/-- The nine queues that occur (10_state.md R31). -/
def occurringQueues : List (List MicroOp) :=
  [[], [.rvLo, .rvHi], [.rvHi], [.ldA], [.andA], [.latchLo, .latchHiJmp], [.latchHiJmp], [.latchLo, .latchHiSta],
    [.latchHiSta]]

theorem queue_occurs {s : State} {w : Word} (h : expectedAddress s = some w) : s.queue ∈ occurringQueues := by
  unfold expectedAddress at h
  split at h
  case h_10 => cases h
  all_goals simp [occurringQueues, *]

/-- While reading, only the address has to fit the queue. -/
theorem sequencerConsistent_reading {s : State} (hr : s.pins.rwb = true) :
    SequencerConsistent s ↔ expectedAddress s = some s.pins.addressBus := by
  simp [SequencerConsistent, hr]

theorem sequencerConsistent_resetAction {s : State} (hr : s.pins.rwb = true) :
    SequencerConsistent (resetAction s) := by
  simp [sequencerConsistent_reading, expectedAddress, hr]

theorem sequencerConsistent_decodeOpcode (op : Byte) {s : State} (hr : s.pins.rwb = true) (hq : s.queue = []) :
    SequencerConsistent (decodeOpcode op s) := by
  rcases opcode_cases op with rfl | rfl | rfl | rfl | rfl | h
  case inr.inr.inr.inr.inr =>
    rw [decodeOpcode_unrecognised h]
    exact sequencerConsistent_resetAction hr
  all_goals simp [sequencerConsistent_reading, expectedAddress, hr, hq]

/-- A micro-op taken from the front of a queue that occurs leaves the address that the rest of the queue wants. -/
theorem sequencerConsistent_runMicroOp {m : MicroOp} {s : State} (hr : s.pins.rwb = true)
    (hq : m :: s.queue ∈ occurringQueues) : SequencerConsistent (runMicroOp m s) := by
  cases m with
  | latchHiSta =>
    have hrest : s.queue = [] := by simpa [occurringQueues] using hq
    simp [SequencerConsistent, expectedAddress, runMicroOp, hrest]
  | latchLo =>
    have hrest : s.queue = [.latchHiJmp] ∨ s.queue = [.latchHiSta] := by simpa [occurringQueues] using hq
    rcases hrest with hrest | hrest <;>
      simp [sequencerConsistent_reading, expectedAddress, runMicroOp, hr, hrest]
  | rvLo =>
    have hrest : s.queue = [.rvHi] := by simpa [occurringQueues] using hq
    simp [sequencerConsistent_reading, expectedAddress, runMicroOp, hr, hrest]
  | rvHi | ldA | andA | latchHiJmp =>
    have hrest : s.queue = [] := by simpa [occurringQueues] using hq
    simp [sequencerConsistent_reading, expectedAddress, runMicroOp, hr, hrest]

/-- An engine cycle needs only a queue that occurs: it sets the address bus and the pin itself. -/
theorem sequencerConsistent_engineCycle {s : State} (h : s.queue ∈ occurringQueues) :
    SequencerConsistent (engineCycle s) := by
  rcases engineCycle_cases s with ⟨-, he⟩ | ⟨-, m, q, hq, he⟩ | ⟨-, hq, he⟩ <;> rw [he]
  · exact sequencerConsistent_resetAction rfl
  · exact sequencerConsistent_runMicroOp rfl (by simpa [hq] using h)
  · exact sequencerConsistent_decodeOpcode _ rfl hq

theorem simStep_keeps_sequencerConsistent (lv : Levels) (s : State) (h : SequencerConsistent s) :
    SequencerConsistent (simStep lv s) := by
  rcases simStep_cases lv s with hs | hs | hs <;> rw [hs]
  · exact h
  · exact h
  · exact sequencerConsistent_engineCycle (s := clockHigh s lv.resetEn) (queue_occurs h.1)

/-- Settles O42: an engine cycle that starts from one of the nine queues leaves a consistent sequencer, and nothing
else in a simulation step touches queue, address bus and pin. -/
theorem sequencerStaysConsistent : Obligations.SequencerStaysConsistent := fun _ _ =>
  step_keeps (fun _ _ h => h) simStep_keeps_sequencerConsistent

/-! ### `x`, `y` and `sp` keep their reset values -/

theorem runMicroOp_keeps_indexAtReset (m : MicroOp) {s : State} (h : IndexAtReset s) :
    IndexAtReset (runMicroOp m s) := by
  cases m <;> exact h

theorem decodeOpcode_keeps_indexAtReset (op : Byte) {s : State} (h : IndexAtReset s) :
    IndexAtReset (decodeOpcode op s) := by
  rcases opcode_cases op with rfl | rfl | rfl | rfl | rfl | hu
  case inr.inr.inr.inr.inr =>
    rw [decodeOpcode_unrecognised hu]
    exact ⟨rfl, rfl, rfl⟩
  all_goals exact h

theorem engineCycle_keeps_indexAtReset {s : State} (h : IndexAtReset s) : IndexAtReset (engineCycle s) := by
  rcases engineCycle_cases s with ⟨-, he⟩ | ⟨-, m, q, -, he⟩ | ⟨-, -, he⟩ <;> rw [he]
  · exact ⟨rfl, rfl, rfl⟩
  · exact runMicroOp_keeps_indexAtReset m (s := popFront (forceRead s)) h
  · exact decodeOpcode_keeps_indexAtReset _ (s := forceRead s) h

theorem simStep_keeps_indexAtReset (lv : Levels) (s : State) (h : IndexAtReset s) : IndexAtReset (simStep lv s) := by
  rcases simStep_cases lv s with hs | hs | hs <;> rw [hs]
  · exact h
  · exact h
  · exact engineCycle_keeps_indexAtReset (s := clockHigh s lv.resetEn) h

/-- Settles O45: the reset action writes the reset values, and nothing else writes the three registers. -/
theorem indexRegistersKeepTheirReset : Obligations.IndexRegistersKeepTheirReset := fun _ _ =>
  step_keeps (fun _ _ h => h) simStep_keeps_indexAtReset

/-! ### `x`, `y` and `sp` influence nothing -/

theorem runMicroOp_withoutIndex (m : MicroOp) (s : State) :
    withoutIndex (runMicroOp m (withoutIndex s)) = withoutIndex (runMicroOp m s) := by
  cases m <;> rfl

theorem decodeOpcode_withoutIndex (op : Byte) (s : State) :
    withoutIndex (decodeOpcode op (withoutIndex s)) = withoutIndex (decodeOpcode op s) := by
  rcases opcode_cases op with rfl | rfl | rfl | rfl | rfl | hu
  case inr.inr.inr.inr.inr =>
    rw [decodeOpcode_unrecognised hu, decodeOpcode_unrecognised hu]
    rfl
  all_goals rfl

theorem engineCycle_withoutIndex (s : State) :
    withoutIndex (engineCycle (withoutIndex s)) = withoutIndex (engineCycle s) := by
  rcases engineCycle_cases s with ⟨hr, he⟩ | ⟨hr, m, q, hq, he⟩ | ⟨hr, hq, he⟩ <;> rw [he]
  · rw [engineCycle_reset (s := withoutIndex s) hr]
    rfl
  · rw [engineCycle_queued (s := withoutIndex s) hr hq]
    exact runMicroOp_withoutIndex m (popFront (forceRead s))
  · rw [engineCycle_decode (s := withoutIndex s) hr hq]
    exact decodeOpcode_withoutIndex _ (forceRead s)

theorem stepLevels_withoutIndex (s : State) : stepLevels (withoutIndex s) = stepLevels s := stepLevels_of_pc rfl

/-- The parts of a simulation step other than the engine pass the three registers through. -/
theorem partsRespect_withoutIndex : PartsRespect (fun s s' => withoutIndex s = withoutIndex s') where
  levels {s s'} h := by
    refine ⟨?_, (congrArg State.wave h :)⟩
    rw [← stepLevels_withoutIndex s, h, stepLevels_withoutIndex]
  pending w h := congrArg (fun u : State => { u with wave := w }) h
  clock h := (congrArg (fun u => u.pins.clock) h :)
  drive lv h := congrArg (drive lv) h
  low r h := congrArg (clockLow · r) h
  high r h := congrArg (clockHigh · r) h
  engine {s s'} h := by rw [← engineCycle_withoutIndex s, h, engineCycle_withoutIndex]
  settle h := congrArg settle h

/-- Settles O49: no part of a simulation step, nor the choice of the steps to take, depends on the three registers. -/
theorem indexRegistersInfluenceNothing : Obligations.IndexRegistersInfluenceNothing := fun _ _ _ =>
  step_respects partsRespect_withoutIndex

/-! ### The scratch latch influences nothing until its low lane is read -/

/-- The state with another value in the scratch latch. -/
def withScratch (w : Word) (s : State) : State := { s with reg := { s.reg with internal := w } }

/-- A micro-op of the queue is going to read the low lane of the scratch latch before LATCH_LO writes it. The high
lane is always written first (42_jump.md R151, 43_store.md R161). -/
def readsLowLane : List MicroOp → Bool
  | [] => false
  | .latchLo :: _ => false
  | .latchHiJmp :: _ => true
  | .latchHiSta :: _ => true
  | _ :: q => readsLowLane q

/-- The two states differ at most in what the scratch latch holds, and not in what the queue still reads of it. -/
def ScratchUnread (s s' : State) : Prop :=
  ∃ w, s' = withScratch w s ∧ (readsLowLane s.queue = true → lowByte w = lowByte s.reg.internal)

theorem scratchUnread_refl (s : State) : ScratchUnread s s := ⟨s.reg.internal, rfl, fun _ => rfl⟩

theorem withoutScratch_of_scratchUnread {s s' : State} (h : ScratchUnread s s') :
    withoutScratch s = withoutScratch s' := by
  obtain ⟨w, rfl, -⟩ := h
  rfl

/-- The high-byte micro-ops write the high lane and read the low one: of the old latch only the low lane counts. -/
theorem microLatchHiJmp_withScratch {w : Word} {s : State} (h : lowByte w = lowByte s.reg.internal) :
    microLatchHiJmp (withScratch w s) = microLatchHiJmp s := by
  simp only [microLatchHiJmp, withScratch, setHigh, h]

theorem microLatchHiSta_withScratch {w : Word} {s : State} (h : lowByte w = lowByte s.reg.internal) :
    microLatchHiSta (withScratch w s) = microLatchHiSta s := by
  simp only [microLatchHiSta, withScratch, setHigh, h]

theorem scratchUnread_runMicroOp (m : MicroOp) {s : State} {w : Word}
    (h : readsLowLane (m :: s.queue) = true → lowByte w = lowByte s.reg.internal) :
    ScratchUnread (runMicroOp m s) (runMicroOp m (withScratch w s)) := by
  cases m with
  | latchLo => exact ⟨setLow w s.pins.dataBus, rfl, fun _ => by simp [runMicroOp]⟩
  | latchHiJmp =>
    rw [runMicroOp, runMicroOp, microLatchHiJmp_withScratch (h rfl)]
    exact scratchUnread_refl _
  | latchHiSta =>
    rw [runMicroOp, runMicroOp, microLatchHiSta_withScratch (h rfl)]
    exact scratchUnread_refl _
  | rvLo | rvHi | ldA | andA => exact ⟨w, rfl, h⟩

theorem scratchUnread_decodeOpcode (op : Byte) {s : State} (hq : s.queue = []) (w : Word) :
    ScratchUnread (decodeOpcode op s) (decodeOpcode op (withScratch w s)) := by
  rcases opcode_cases op with rfl | rfl | rfl | rfl | rfl | hu
  case inr.inr.inr.inr.inr =>
    rw [decodeOpcode_unrecognised hu, decodeOpcode_unrecognised hu]
    exact scratchUnread_refl (resetAction s)
  case inr.inr.inl => exact ⟨w, rfl, by simp [hq, readsLowLane]⟩
  all_goals exact ⟨w, rfl, by simp [readsLowLane]⟩

theorem scratchUnread_engineCycle {s s' : State} (h : ScratchUnread s s') :
    ScratchUnread (engineCycle s) (engineCycle s') := by
  obtain ⟨w, rfl, hread⟩ := h
  rcases engineCycle_cases s with ⟨hr, he⟩ | ⟨hr, m, q, hq, he⟩ | ⟨hr, hq, he⟩ <;> rw [he]
  · rw [engineCycle_reset (s := withScratch w s) hr]
    exact scratchUnread_refl (resetAction (forceRead s))
  · rw [engineCycle_queued (s := withScratch w s) hr hq]
    exact scratchUnread_runMicroOp m (s := popFront (forceRead s)) (by simpa [hq] using hread)
  · rw [engineCycle_decode (s := withScratch w s) hr hq]
    exact scratchUnread_decodeOpcode _ (s := forceRead s) hq w

theorem stepLevels_withScratch (w : Word) (s : State) : stepLevels (withScratch w s) = stepLevels s :=
  stepLevels_of_pc rfl

/-- The parts of a simulation step other than the engine pass the latch and the queue through. -/
theorem partsRespect_scratchUnread : PartsRespect ScratchUnread where
  levels := fun ⟨w, hs, _⟩ => hs ▸ ⟨(stepLevels_withScratch w _).symm, rfl⟩
  pending _ := fun ⟨w, hs, hread⟩ => ⟨w, hs ▸ rfl, hread⟩
  clock := fun ⟨_, hs, _⟩ => hs ▸ rfl
  drive _ := fun ⟨w, hs, hread⟩ => ⟨w, hs ▸ rfl, hread⟩
  low _ := fun ⟨w, hs, hread⟩ => ⟨w, hs ▸ rfl, hread⟩
  high _ := fun ⟨w, hs, hread⟩ => ⟨w, hs ▸ rfl, hread⟩
  engine := scratchUnread_engineCycle
  settle := fun ⟨w, hs, hread⟩ => ⟨w, hs ▸ rfl, hread⟩

/-- Settles O50: with an empty queue nothing of the scratch latch is going to be read, and LATCH_LO and the high-byte
micro-ops write each lane before they read it. -/
theorem oldScratchLatchInfluencesNothing : Obligations.OldScratchLatchInfluencesNothing := by
  intro s t w hq hstep
  have hunread : ScratchUnread s (withScratch w s) := ⟨w, rfl, by simp [hq, readsLowLane]⟩
  obtain ⟨t', hstep', hrel⟩ := step_respects partsRespect_scratchUnread hunread hstep
  exact ⟨t', hstep', withoutScratch_of_scratchUnread hrel⟩

/-! ### Right after reset -/

/-- Settles O46: the memory is empty, and of the other fields `State.reset` says what they hold. -/
theorem invariantsHoldAtReset : Obligations.InvariantsHoldAtReset := by
  refine ⟨?_, Memory.wf_reset, ?_, ?_, ⟨rfl, rfl, rfl⟩⟩
  · exact (sequencerConsistent_reading rfl).mpr rfl
  · exact ⟨rfl, rfl, rfl, rfl, nofun, fun _ => rfl⟩
  · exact nofun

end Sys2Proof.Machine
end

section
/-! PROOFS. The two components on the bus besides the processor: the gate and the memory (20_memory.md sections 2
and 3). -/

namespace Sys2Proof.Machine

/-! ### The gate -/

/-- The gate's tick with the function written out (20_memory.md R55). -/
theorem gateTick_eq (s : State) :
    gateTick s = { s with nodes := { s.nodes with we := !(s.nodes.rwb && s.nodes.rwb) } } := rfl

/-- Settles O5: the four rows are evaluated, and the tick writes that function of the two inputs to `WE`. -/
theorem gateTickIsNand : Obligations.GateTickIsNand := ⟨rfl, rfl, rfl, rfl, gateTick_eq⟩

/-! ### The memory's action, case by case on its three control pins (20_memory.md R51 to R54) -/

section
variable (oe we : Bool) (addr : Word) (data : Byte) (mem : Memory)

@[simp] theorem memoryAction_unselected : memoryAction false oe we addr data mem = (data, mem) := rfl

/-- Read comes before write: the write-enable pin has no part in a read (R53). -/
@[simp] theorem memoryAction_read : memoryAction true true we addr data mem = (mem.read addr.toNat, mem) := rfl

@[simp] theorem memoryAction_write :
    memoryAction true false true addr data mem = (data, mem.write addr.toNat data) := rfl

@[simp] theorem memoryAction_idle : memoryAction true false false addr data mem = (data, mem) := rfl

end

/-- Settles O6: one equation per case of the pins, and the laws of `Memory.write` for what the write leaves. -/
theorem memoryTickTable : Obligations.MemoryTickTable := by
  intro addr data mem
  refine ⟨fun oe we => memoryAction_unselected oe we addr data mem, fun we => memoryAction_read we addr data mem,
    ?data, ?written, ?others, memoryAction_idle addr data mem⟩
  case data => rw [memoryAction_write]
  case written => rw [memoryAction_write, Memory.read_write_same]
  case others =>
    intro b hb
    rw [memoryAction_write, Memory.read_write_other mem data hb]

/-! ### The memory's tick in the reference wiring -/

/-- The tick's frame: a state whose data node and array are those after the tick differs in nothing else (R56). -/
theorem memoryTick_frame (s : State) :
    memoryTick s = { s with nodes := { s.nodes with data := (memoryTick s).nodes.data }, mem := (memoryTick s).mem } :=
  rfl

/-- Settles O7: the frame of the tick, and the values of the two fields it writes. -/
theorem memoryTickFollowsTheWiring : Obligations.MemoryTickFollowsTheWiring := by
  intro s
  refine ⟨memoryTick_frame s, ?_⟩
  rw [memoryTick_nodes_data, memoryTick_mem]

end Sys2Proof.Machine
end

section
/-! PROOFS. Decode and encode (30_encoding.md): one rule per operand count says what a decode answers; each of the
two directions applies it opcode by opcode. -/

namespace Sys2Proof

/-! ### The byte lanes of an assembled address -/

@[simp] theorem lowByte_absoluteAddress (b1 b2 : Byte) : lowByte (absoluteAddress b1 b2) = b1 :=
  lowByte_wordOf b2 b1

@[simp] theorem highByte_absoluteAddress (b1 b2 : Byte) : highByte (absoluteAddress b1 b2) = b2 :=
  highByte_wordOf b2 b1

/-! ### What a list of bytes decodes to, by the number of operand bytes of its opcode (R90, R97) -/

section
variable {op : Byte} {tail rest : List Byte} {i : Instr}

theorem decode_noOperand_iff (hcount : operandCount op = 0) :
    decode (op :: tail) = .ok (i, rest) ↔ tail = rest ∧ decodeThree op 0 0 = i := by
  simp [decode, hcount, and_comm]

theorem decode_oneOperand_iff (hcount : operandCount op = 1) :
    decode (op :: tail) = .ok (i, rest) ↔ ∃ b, tail = b :: rest ∧ decodeThree op b 0 = i := by
  cases tail with
  | nil => simp [decode, hcount]
  | cons b r => simp [decode, hcount, and_comm]

theorem decode_twoOperands_iff (hcount : operandCount op = 2) :
    decode (op :: tail) = .ok (i, rest) ↔ ∃ b1 b2, tail = b1 :: b2 :: rest ∧ decodeThree op b1 b2 = i := by
  match tail with
  | [] => simp [decode, hcount]
  | [_] => simp [decode, hcount]
  | b1 :: b2 :: r => simp [decode, hcount, and_comm]

/-- An unrecognised byte is an instruction of one byte, whatever follows it (R96). -/
theorem decode_undef (h : recognised op = false) : decode (op :: rest) = .ok (.undef op, rest) :=
  (decode_noOperand_iff (operandCount_undef h)).mpr ⟨rfl, decodeThree_undef h 0 0⟩

end

/-! ### The two directions -/

/-- Settles O1: the operand bytes are those the opcode's rule asks for, and an address is put together from its own two
bytes; an `UNDEF` byte is well-formed because it is not recognised. -/
theorem decodeReadsWhatEncodeWrites : Obligations.DecodeReadsWhatEncodeWrites := by
  intro i rest hwf
  cases i with
  | ldaImm imm => exact (decode_oneOperand_iff rfl).mpr ⟨imm, rfl, rfl⟩
  | andImm imm => exact (decode_oneOperand_iff rfl).mpr ⟨imm, rfl, rfl⟩
  | aslA => exact (decode_noOperand_iff rfl).mpr ⟨rfl, rfl⟩
  | jmpAbs addr => exact (decode_twoOperands_iff rfl).mpr ⟨lowByte addr, highByte addr, rfl, by simp⟩
  | staAbs addr => exact (decode_twoOperands_iff rfl).mpr ⟨lowByte addr, highByte addr, rfl, by simp⟩
  | undef op => exact decode_undef (by simpa [undef_wf_iff] using hwf)

/-- Settles O2, by the opcode at the head of the list: the bytes that the opcode's rule took are the ones that its
instruction encodes. -/
theorem decodedBytesEncodeBack : Obligations.DecodedBytesEncodeBack := by
  intro bytes rest i h
  cases bytes with
  | nil => nomatch h
  | cons op tail =>
    rcases opcode_cases op with rfl | rfl | rfl | rfl | rfl | hu
    case inr.inr.inr.inr.inr =>
      obtain ⟨rfl, rfl⟩ := (decode_noOperand_iff (operandCount_undef hu)).mp h
      simp [decodeThree_undef hu, undef_wf_iff, hu, encode]
    case inr.inr.inl =>
      obtain ⟨rfl, rfl⟩ := (decode_noOperand_iff rfl).mp h
      exact ⟨rfl, rfl⟩
    case inl | inr.inl =>
      obtain ⟨b, rfl, rfl⟩ := (decode_oneOperand_iff rfl).mp h
      exact ⟨rfl, rfl⟩
    case inr.inr.inr.inl | inr.inr.inr.inr.inl =>
      obtain ⟨b1, b2, rfl, rfl⟩ := (decode_twoOperands_iff rfl).mp h
      simp [Instr.wf, encode]

/-! ### The 251 other bytes (R96, 60_exceptions.md R170) -/

/-- From an empty queue the decode of a recognised opcode never starts a vector fetch, as the reset action does. -/
theorem rvLo_notMem_queue_decodeOpcode {op : Byte} (h : recognised op = true) {s : Machine.State}
    (hq : s.queue = []) : .rvLo ∉ (Machine.decodeOpcode op s).queue := by
  rcases (recognised_true_iff op).mp h with rfl | rfl | rfl | rfl | rfl <;> simp [hq]

theorem recognised_false_iff_decode (op : Byte) (rest : List Byte) :
    recognised op = false ↔ decode (op :: rest) = .ok (.undef op, rest) := by
  refine ⟨decode_undef, fun h => ?_⟩
  obtain ⟨hwf, -⟩ := decodedBytesEncodeBack _ _ _ h
  simpa [undef_wf_iff] using hwf

theorem recognised_false_iff_resetAction (op : Byte) :
    recognised op = false ↔ ∀ s, Machine.decodeOpcode op s = Machine.resetAction s := by
  refine ⟨Machine.decodeOpcode_unrecognised, fun h => ?_⟩
  by_contra hr
  apply rvLo_notMem_queue_decodeOpcode (Bool.eq_true_of_not_eq_false hr)
    (s := Machine.setQueue [] Machine.State.reset) rfl
  rw [h]
  simp

/-- Settles O4: the five inequalities say that the byte is not recognised. `UNDEF` is well-formed for no recognised
byte, so none decodes to it; and no recognised byte queues the vector fetch. -/
theorem otherBytesAreUnrecognised : Obligations.OtherBytesAreUnrecognised := fun op rest =>
  ⟨(recognised_false_iff op).symm.trans (recognised_false_iff_decode op rest),
    (recognised_false_iff op).symm.trans (recognised_false_iff_resetAction op)⟩

/-! ### Words written out -/

/-- Settles O3: each word is the encoding of the instruction in its row. -/
theorem writtenOutWordsDecode : Obligations.WrittenOutWordsDecode :=
  ⟨decodeReadsWhatEncodeWrites (.ldaImm 0xAB#8) [] rfl, decodeReadsWhatEncodeWrites (.andImm 0xA0#8) [] rfl,
    decodeReadsWhatEncodeWrites .aslA [] rfl, decodeReadsWhatEncodeWrites (.jmpAbs 0x8002#16) [] rfl,
    decodeReadsWhatEncodeWrites (.staAbs 0x0100#16) [] rfl, decodeReadsWhatEncodeWrites (.undef 0xEA#8) [] rfl⟩

end Sys2Proof
end

section
/-! PROOFS. The sequencer (40_sequencer.md): what a processor tick does on each kind of clock sample, the engine cycle
and two of its operations, what every simulation step leaves on the bus, and an instruction fetched at `pc`. -/

namespace Sys2Proof.Machine

/-! ### The processor's edge detector (R110 to R113) -/

/-- The state in which the processor has taken note of the clock level driven and of nothing else. -/
def clockNoted (lv : Levels) (s : State) : State := { drive lv s with pins := { s.pins with clock := lv.clock } }

section
variable {lv : Levels} {s : State}

theorem clockNoted_of_same (h : lv.clock = s.pins.clock) : clockNoted lv s = drive lv s := by
  rw [clockNoted, h, ← drive_pins s lv]

theorem processorEdge_of_same (engine : State → State) (h : lv.clock = s.pins.clock) :
    processorEdge engine (drive lv s) = drive lv s := by
  simp [processorEdge, h]

/-- Without a rising edge the engine does not run, and reset-enable and the data bus are not sampled. -/
theorem processorEdge_of_not_rising (engine : State → State) (h : ¬(s.pins.clock = false ∧ lv.clock = true)) :
    processorEdge engine (drive lv s) = clockNoted lv s := by
  by_cases hsame : lv.clock = s.pins.clock
  · rw [processorEdge_of_same engine hsame, clockNoted_of_same hsame]
  · have hfalling : s.pins.clock = true ∧ lv.clock = false := by grind
    simp [processorEdge, clockNoted, hfalling]

theorem processorEdge_of_rising (engine : State → State) (hs : s.pins.clock = false) (hlv : lv.clock = true) :
    processorEdge engine (drive lv s) = engine (clockHigh s lv.resetEn) := by
  simp [processorEdge, hs, hlv, clockHigh, drive, sampleInputs]

variable (lv s)

/-- The nodes are written by the write-back, not before it (R114). -/
@[simp] theorem processorEdge_nodes : (processorEdge engineCycle (drive lv s)).nodes = (drive lv s).nodes := by
  by_cases h : s.pins.clock = false ∧ lv.clock = true
  · obtain ⟨hs, hlv⟩ := h
    rw [processorEdge_of_rising engineCycle hs hlv, engineCycle_nodes, clockHigh, drive, hlv]
  · rw [processorEdge_of_not_rising engineCycle h, clockNoted]

/-- Whatever the edge, the clock level last seen is then the one driven. -/
@[simp] theorem processorEdge_clock : (processorEdge engineCycle (drive lv s)).pins.clock = lv.clock := by
  by_cases h : s.pins.clock = false ∧ lv.clock = true
  · obtain ⟨hs, hlv⟩ := h
    rw [processorEdge_of_rising engineCycle hs hlv, engineCycle_clock, clockHigh, hlv]
  · rw [processorEdge_of_not_rising engineCycle h, clockNoted]

end

/-! ### Every simulation step settles the bus -/

/-- The ticks after the engine settle every bus on which the processor has seen the clock (R114, 20_memory.md R55, R59,
R61). -/
theorem busSettled_settle {s : State} (hclk : s.nodes.clk = s.pins.clock) : BusSettled (settle s) := by
  refine ⟨hclk, settle_nodes_addr s, settle_nodes_rwb s, settle_nodes_we s, fun hwrite => ?data, fun hcs => ?mem⟩
  case data =>
    rw [settle_pins] at hwrite ⊢
    rw [settle_nodes_data, settledData_writing hwrite]
  case mem =>
    rw [settle_mem, settle_nodes_data]
    exact read_settledMem_shown hcs

theorem busSettled_simStep (lv : Levels) (s : State) : BusSettled (simStep lv s) := by
  rw [simStep, simStepWith_eq]
  apply busSettled_settle
  rw [processorEdge_nodes, processorEdge_clock, drive_nodes_clk]

/-- While a settled bus writes, the memory agrees with the data node and the data node with the latch. -/
theorem writeDone_of_busSettled {s : State} (h : BusSettled s) : WriteDone s := by
  obtain ⟨-, -, -, -, hdata, hmem⟩ := h
  intro hwrite hcs
  rw [hmem hcs, hdata hwrite]

theorem cycleCount_pos (i : Instr) : 0 < cycleCount i := by cases i <;> exact Nat.succ_pos _

/-- A step is never empty: it takes at least one simulation step. -/
theorem stepLevels_ne_nil (s : State) : stepLevels s ≠ [] := by
  cases hw : s.wave with
  | cons lv rest => simp [stepLevels, hw]
  | nil =>
    have hpos : 0 < if s.queue = [] then cycleCount (fetch s) else s.queue.length := by
      split
      · exact cycleCount_pos _
      · next hq => exact List.length_pos_iff.mpr hq
    simp only [stepLevels, hw]
    rw [← List.length_pos_iff, runningWave_length]
    omega

/-- What every simulation step establishes, whatever it starts from, every step establishes. -/
theorem step_establishes {P : State → Prop} (hsim : ∀ lv s, P (simStep lv s)) {s t : State}
    (hstep : step s = .next t) : P t := by
  rw [step_eq_runWave] at hstep
  cases hstep
  cases hl : stepLevels s with
  | nil => exact absurd hl (stepLevels_ne_nil s)
  | cons lv rest => exact runWave_keeps (fun lv' u _ => hsim lv' u) rest (hsim lv _)

/-- Settles O44: the last simulation step of the step settles the bus, and a settled bus has its held write done. -/
theorem everyStepSettlesTheBus : Obligations.EveryStepSettlesTheBus := fun _ _ hstep =>
  have hbus := step_establishes busSettled_simStep hstep
  ⟨hbus, writeDone_of_busSettled hbus⟩

/-! ### The processor tick -/

/-- Settles O11: the write-back writes three nodes from the pins, and before it nothing has written the data node. -/
theorem writeBackOnEveryTick : Obligations.WriteBackOnEveryTick := by
  intro lv s
  rw [processorTick, writeBack_pins]
  refine ⟨writeBack_nodes_addr _, writeBack_nodes_rwb _, fun hwrite => ?writing, fun hread => ?reading⟩
  case writing => simp [hwrite]
  case reading => simp [hread]

/-- Settles O8: the edge detector leaves a duplicate sample alone. -/
theorem duplicateSampleOnlyWritesBack : Obligations.DuplicateSampleOnlyWritesBack := by
  intro lv s hsame
  rw [processorTick, processorEdge_of_same engineCycle hsame]
  exact ⟨rfl, rfl, rfl, rfl⟩

/-- Settles O9: a falling edge is not a rising one, so only the clock level is noted. -/
theorem fallingEdgeOnlyMovesTheClockLatch : Obligations.FallingEdgeOnlyMovesTheClockLatch := by
  intro lv s hs hlv
  rw [processorTick, processorEdge_of_not_rising engineCycle (by simp [hs]), clockNoted, hlv]
  exact ⟨rfl, rfl, rfl, rfl⟩

/-- Settles O10: on a rising edge the engine starts from `clockHigh`, which is the sampling; on any other tick only the
clock level is noted. -/
theorem risingEdgeSamplesThenRunsTheEngine : Obligations.RisingEdgeSamplesThenRunsTheEngine := by
  refine ⟨fun lv s hs hlv => ?rising, fun lv s h => ?other⟩
  case rising =>
    rw [processorTick, processorEdge_of_rising engineCycle hs hlv]
    simp only [clockHigh, drive, hlv]
  case other =>
    rw [processorTick, processorEdge_of_not_rising engineCycle h]
    rfl

/-! ### The engine cycle -/

/-- Settles O12: one equation per family. -/
theorem enginePriority : Obligations.EnginePriority := by
  intro s
  refine ⟨engineCycle_reset, fun m q hr hq => ?_, engineCycle_decode⟩
  rw [engineCycle_queued hr hq, popFront, forceRead_queue, hq]
  rfl

/-- The store's micro-op is the only one that turns the pin to "write" (43_store.md R161). -/
theorem runMicroOp_rwb_eq_false_iff (m : MicroOp) {s : State} (hr : s.pins.rwb = true) :
    (runMicroOp m s).pins.rwb = false ↔ m = .latchHiSta := by
  cases m <;> simp [runMicroOp, hr]

/-- Settles O13: every family starts from a pin at "read"; of the three only the micro-ops can turn it. -/
theorem writeOnlyAfterStoreMicroOp : Obligations.WriteOnlyAfterStoreMicroOp := by
  intro s
  rcases engineCycle_cases s with ⟨hr, he⟩ | ⟨hr, m, q, hq, he⟩ | ⟨hr, hq, he⟩ <;> rw [he]
  · simp [hr]
  · rw [runMicroOp_rwb_eq_false_iff m (by simp)]
    simp [hr, hq]
  · obtain ⟨-, -, -, -, -, hrwb, -⟩ := decodeOpcode_frame s.pins.dataBus (forceRead s)
    simp [hrwb, hq]

/-- Settles O14: the increment's value, and the two fields that it reaches. -/
theorem incAddrWraps : Obligations.IncAddrWraps := by
  refine ⟨fun s => ⟨incWord_toNat s.reg.pc, rfl⟩, fun s hpc => ?_⟩
  rw [incAddr_reg_pc, hpc]
  rfl

/-- Settles O17: the low lane is replaced, the high lane kept, and the rest is the increment's. -/
theorem latchLowMicroOp : Obligations.LatchLowMicroOp := fun s =>
  ⟨lowByte_setLow s.reg.internal s.pins.dataBus, highByte_setLow s.reg.internal s.pins.dataBus, rfl⟩

/-! ### Levels without a rising edge (70_reset_and_hazards.md R210) -/

/-- What a program can see of a state, apart from the clock latch, is the same in `t` as in `s`. -/
structure VisiblySame (s t : State) : Prop where
  reg : t.reg = s.reg
  queue : t.queue = s.queue
  pins : t.pins = { s.pins with clock := t.pins.clock }
  data : t.nodes.data = s.nodes.data
  mem : SameMemory s t

theorem VisiblySame.refl (s : State) : VisiblySame s s := ⟨rfl, rfl, rfl, rfl, fun _ => rfl⟩

theorem VisiblySame.trans {s t u : State} (hst : VisiblySame s t) (htu : VisiblySame t u) : VisiblySame s u where
  reg := htu.reg.trans hst.reg
  queue := htu.queue.trans hst.queue
  pins := by rw [htu.pins, hst.pins]
  data := htu.data.trans hst.data
  mem b := (htu.mem b).trans (hst.mem b)

/-- The end of a step puts on a settled bus the byte that is there (20_memory.md R60). -/
theorem settledData_of_busSettled {s : State} (h : BusSettled s) : settledData s = s.nodes.data := by
  obtain ⟨-, -, -, -, hdata, hmem⟩ := h
  cases hr : s.pins.rwb with
  | false => rw [settledData_writing hr, hdata hr]
  | true =>
    cases hc : s.nodes.cs with
    | false => simp [settledData, hr, hc]
    | true => rw [settledData_reading hr hc, hmem hc]

/-- The end of a step does not depend on the clock latch, nor on what the environment drives. -/
theorem settledData_clockNoted (lv : Levels) (s : State) : settledData (clockNoted lv s) = settledData s := rfl

theorem settledMem_clockNoted (lv : Levels) (s : State) : settledMem (clockNoted lv s) = settledMem s := rfl

theorem visiblySame_simStep {lv : Levels} {s : State} (hbus : BusSettled s)
    (h : ¬(s.pins.clock = false ∧ lv.clock = true)) : VisiblySame s (simStep lv s) := by
  rw [simStep, simStepWith_eq, processorEdge_of_not_rising engineCycle h]
  refine ⟨rfl, rfl, rfl, ?data, fun b => ?mem⟩
  case data =>
    rw [settle_nodes_data, settledData_clockNoted, settledData_of_busSettled hbus]
  case mem =>
    rw [settle_mem, settledMem_clockNoted, read_settledMem_held (writeDone_of_busSettled hbus) b]

theorem simStep_clock (lv : Levels) (s : State) : (simStep lv s).pins.clock = lv.clock := by
  simp [simStep, simStepWith_eq]

theorem risingEdges_cons_eq_zero_iff (c : Bool) (lv : Levels) (ls : List Levels) :
    risingEdges c (lv :: ls) = 0 ↔ ¬(c = false ∧ lv.clock = true) ∧ risingEdges lv.clock ls = 0 := by
  simp [risingEdges]

theorem runWave_of_no_risingEdge {levels : List Levels} {s : State} (hbus : BusSettled s)
    (h : risingEdges s.pins.clock levels = 0) :
    VisiblySame s (runWave levels s) ∧ BusSettled (runWave levels s) := by
  induction levels generalizing s with
  | nil => exact ⟨VisiblySame.refl s, hbus⟩
  | cons lv rest ih =>
    obtain ⟨hfirst, hrest⟩ := (risingEdges_cons_eq_zero_iff s.pins.clock lv rest).mp h
    rw [← simStep_clock lv s] at hrest
    obtain ⟨hsame, hsettled⟩ := ih (busSettled_simStep lv s) hrest
    exact ⟨(visiblySame_simStep hbus hfirst).trans hsame, hsettled⟩

/-- Settles O47, by induction on the levels. -/
theorem nothingMovesWithoutARisingEdge : Obligations.NothingMovesWithoutARisingEdge := by
  intro levels s hbus h
  obtain ⟨hsame, hsettled⟩ := runWave_of_no_risingEdge hbus h
  exact ⟨hsame.reg, hsame.queue, hsame.pins, hsame.data, hsame.mem, hsettled⟩

/-! ### The instruction at `pc` (R121, R124, 30_encoding.md R98) -/

/-- While a selected memory is read, the bus brings the bytes of the memory. -/
theorem busRead_lowStep_reading {s : State} (hr : s.pins.rwb = true) (hc : s.nodes.cs = true) (a : Word) :
    busRead (lowStep s) a = s.mem.read a.toNat := by
  rw [busRead_lowStep, settledMem_reading hr]
  simp [hc]

/-- A boundary that fetches at `pc` reads its three bytes there. -/
theorem fetch_of_fetchesAtPc {s : State} (h : FetchesAtPc s) :
    fetch s = decodeThree (s.mem.read s.reg.pc.toNat) (s.mem.read (s.reg.pc + 1).toNat)
      (s.mem.read (s.reg.pc + 2).toNat) := by
  obtain ⟨-, hr, hc, haddr⟩ := h
  rw [fetch_eq, settledData_reading hr hc, haddr, busRead_lowStep_reading hr hc, busRead_lowStep_reading hr hc,
    incWord_twice, incWord_eq]

/-- Of three bytes the decoder takes the instruction that they make, whatever it leaves. -/
theorem decodeThree_of_decode {op b1 b2 : Byte} {i : Instr} {rest : List Byte}
    (h : decode [op, b1, b2] = .ok (i, rest)) : decodeThree op b1 b2 = i := by
  rcases opcode_cases op with rfl | rfl | rfl | rfl | rfl | hu
  case inr.inr.inr.inr.inr =>
    obtain ⟨-, rfl⟩ := (decode_noOperand_iff (operandCount_undef hu)).mp h
    rw [decodeThree_undef hu, decodeThree_undef hu]
  all_goals
    cases h
    rfl

/-- Settles O36: the step is the meaning of what is fetched, and the three bytes fetched are those at `pc`. -/
theorem stepRunsTheDecodedInstruction : Obligations.StepRunsTheDecodedInstruction := by
  intro s i rest hfetches hdecode
  obtain ⟨hwave, hqueue⟩ := hfetches.1
  rw [step_boundary hwave hqueue, fetch_of_fetchesAtPc hfetches, decodeThree_of_decode hdecode]

end Sys2Proof.Machine
end

section
/-! PROOFS. The accumulator instructions LDA #imm, AND #imm and ASL A (41_accumulator_ops.md). The engine's action in
each of their cycles writes the accumulator and the queue, then advances and addresses `pc`; so one rule says what any
of these cycles leaves, and LDA and AND are the same two cycles with another operation. -/

namespace Sys2Proof.Machine

/-! ### The arithmetic, bit by bit (R145) -/

theorem andResult_getLsbD (u v : Byte) (k : Nat) :
    (andResult u v).getLsbD k = (u.getLsbD k && v.getLsbD k) := BitVec.getLsbD_and

theorem aslResult_getLsbD_zero (v : Byte) : (aslResult v).getLsbD 0 = false := by simp [aslResult]

theorem aslResult_getLsbD_succ (v : Byte) {k : Nat} (hk : k < 7) :
    (aslResult v).getLsbD (k + 1) = v.getLsbD k := by
  have hin : k + 1 < 8 := by omega
  simp [aslResult, hin, BitVec.getLsbD_eq_getElem (show k < 8 by omega)]

theorem aslResult_iterate (n : Nat) (v : Byte) : aslResult^[n] v = v <<< n := by
  induction n with
  | zero => simp
  | succ n ih => rw [Function.iterate_succ_apply', ih, aslResult, BitVec.shiftLeft_add]

/-- Eight shifts push every bit out (R142, corner cases). -/
theorem aslResult_iterate_eight (v : Byte) : aslResult^[8] v = 0x00#8 := by
  rw [aslResult_iterate, BitVec.shiftLeft_eq_zero le_rfl]

/-! ### The engine's action in one cycle -/

/-- The action of these cycles: the accumulator from itself and the latch, the queue from itself, then `IncAddr()`. -/
def accumulatorAction (f : Byte → Byte → Byte) (q : List MicroOp → List MicroOp) (t : State) : State :=
  incAddr { t with reg := { t.reg with a := f t.reg.a t.pins.dataBus }, queue := q t.queue }

theorem decodeAsl_eq_accumulatorAction : decodeAsl = accumulatorAction (fun a _ => aslResult a) id := rfl

/-- An opcode of format IMM whose operand cycle makes the accumulator `f a imm` through micro-op `m`: its decode cycle
queues `m`, and its meaning is these two cycles. -/
structure ImmediateOp (op : Byte) (m : MicroOp) (f : Byte → Byte → Byte) : Prop where
  decode : decodeOpcode op = accumulatorAction (fun a _ => a) (fun _ => [m])
  micro : (fun t => runMicroOp m (popFront t)) = accumulatorAction f List.tail
  exec (imm b2 : Byte) (s : State) : exec (decodeThree op imm b2) s =
    .next (suppliedCycle imm (fun t => runMicroOp m (popFront t)) (suppliedCycle op (decodeOpcode op) s))

theorem immediateOp_lda : ImmediateOp opLda .ldA (fun _ imm => imm) := ⟨rfl, rfl, fun _ _ _ => rfl⟩

/-- "same shape as 0xA9 but ANDs into `a` instead of overwriting it" (R141). -/
theorem immediateOp_and : ImmediateOp opAnd .andA andResult := ⟨rfl, rfl, fun _ _ _ => rfl⟩

/-! ### What one cycle, or several, leave -/

/-- The machine has gone from `s` to `t` by reading: `pc` is `p` and addressed, the accumulator `a`, the latch `b`, the
queue `q`, and nothing else of the registers or the memory has changed after the end of the write cycle that `s` may
have held. -/
structure ReadsOnTo (p : Word) (a b : Byte) (q : List MicroOp) (s t : State) : Prop where
  reg : t.reg = { s.reg with a := a, pc := p }
  queue : t.queue = q
  wave : t.wave = s.wave
  pins : t.pins = { clock := true, resetEn := true, dataBus := b, rwb := true, addressBus := p }
  cs : t.nodes.cs = s.nodes.cs
  mem : t.mem = settledMem s
  data : t.nodes.data = settledData t

theorem readsOnTo_suppliedCycle (f : Byte → Byte → Byte) (q : List MicroOp → List MicroOp) (b : Byte) (s : State) :
    ReadsOnTo (s.reg.pc + 1) (f s.reg.a b) b (q s.queue) s (suppliedCycle b (accumulatorAction f q) s) := by
  rw [suppliedCycle_eq]
  constructor
  case mem => rw [settle_mem, settledMem_reading rfl]; exact atEdge_mem s true
  case data => rw [settle_nodes_data, settledData_settle]
  all_goals rfl

namespace ReadsOnTo

variable {p p' : Word} {a a' b b' : Byte} {q q' : List MicroOp} {s t u : State}

theorem trans (h : ReadsOnTo p a b q s t) (h' : ReadsOnTo p' a' b' q' t u) : ReadsOnTo p' a' b' q' s u where
  reg := by rw [h'.reg, h.reg]
  queue := h'.queue
  wave := h'.wave.trans h.wave
  pins := h'.pins
  cs := h'.cs.trans h.cs
  mem := by rw [h'.mem, settledMem_reading (by rw [h.pins]), h.mem]
  data := h'.data

/-- The end of a write cycle that has already stored its byte changes no byte (43_store.md R162). -/
theorem sameMemory (h : ReadsOnTo p a b q s t) (hdone : WriteDone s) : SameMemory s t := fun k => by
  rw [h.mem, read_settledMem_held hdone]

theorem latch (h : ReadsOnTo p a b q s t) : t.pins.dataBus = b := by rw [h.pins]

theorem shows (h : ReadsOnTo p a b q s t) : t.pins.addressBus = p := by rw [h.pins]

/-- From a selected memory the bus brings the byte at the new `pc`. -/
theorem data_eq (h : ReadsOnTo p a b q s t) (hs : FetchesAtPc s) : t.nodes.data = s.mem.read p.toNat := by
  obtain ⟨-, hr, hc, -⟩ := hs
  rw [h.data, settledData_reading (by rw [h.pins]) (h.cs.trans hc), h.pins, h.mem, settledMem_reading hr]

end ReadsOnTo

theorem readsOnTo_aslA (s : State) :
    ReadsOnTo (s.reg.pc + 1) (aslResult s.reg.a) opAsl s.queue s (suppliedCycle opAsl decodeAsl s) := by
  rw [decodeAsl_eq_accumulatorAction]
  exact readsOnTo_suppliedCycle (fun a _ => aslResult a) id opAsl s

section
variable {op : Byte} {m : MicroOp} {f : Byte → Byte → Byte} (himm : ImmediateOp op m f)
include himm

theorem readsOnTo_decode (s : State) :
    ReadsOnTo (s.reg.pc + 1) s.reg.a op [m] s (suppliedCycle op (decodeOpcode op) s) := by
  rw [himm.decode]
  exact readsOnTo_suppliedCycle (fun a _ => a) (fun _ => [m]) op s

/-- Both cycles of an instruction with an immediate operand. -/
theorem readsOnTo_immediate (imm : Byte) (s : State) :
    ReadsOnTo (s.reg.pc + 2) (f s.reg.a imm) imm [] s
      (suppliedCycle imm (fun t => runMicroOp m (popFront t)) (suppliedCycle op (decodeOpcode op) s)) := by
  have cycle1 := readsOnTo_decode himm s
  have cycle2 := readsOnTo_suppliedCycle f List.tail imm (suppliedCycle op (decodeOpcode op) s)
  rw [cycle1.reg, cycle1.queue, ← himm.micro] at cycle2
  rw [← incWord_twice]
  exact cycle1.trans cycle2

end

/-! ### The instructions from any state in which a held write is done -/

/-- Settles O24: the two cycles of opcode 0xA9. -/
theorem loadImmediateResult : Obligations.LoadImmediateResult := by
  intro imm s hdone
  have run := readsOnTo_immediate immediateOp_lda imm s
  exact ⟨_, immediateOp_lda.exec imm 0 s, run.reg, run.queue, run.wave, run.pins, run.cs, run.sameMemory hdone⟩

/-- Settles O25: the two cycles of opcode 0x29. -/
theorem andImmediateResult : Obligations.AndImmediateResult := by
  intro imm s hdone
  have run := readsOnTo_immediate immediateOp_and imm s
  refine ⟨_, immediateOp_and.exec imm 0 s, fun k => ?bits, ?reg, run.queue, run.wave, run.pins, run.cs,
    run.sameMemory hdone⟩
  case bits => rw [run.reg, andResult_getLsbD]
  case reg => rw [run.reg]

/-- Settles O26: the one cycle of opcode 0x0A. -/
theorem shiftLeftResult : Obligations.ShiftLeftResult := by
  intro s hdone
  have run := readsOnTo_aslA s
  refine ⟨_, rfl, ?value, ?bit0, fun k hk => ?bits, ?reg, run.queue, run.wave, run.pins, run.cs,
    run.sameMemory hdone⟩
  case value => rw [run.reg, aslResult_toNat]
  case bit0 => rw [run.reg, aslResult_getLsbD_zero]
  case bits => rw [run.reg, aslResult_getLsbD_succ _ hk]
  case reg => rw [run.reg]

/-! ### The instructions from memory, cycle by cycle -/

/-- A boundary that reads has no write to hold. -/
theorem FetchesAtPc.writeDone {s : State} (h : FetchesAtPc s) : WriteDone s := by
  obtain ⟨-, hr, -, -⟩ := h
  simp [WriteDone, hr]

section
variable {s : State} {op : Byte} (h : FetchesAtPc s) (hop : s.mem.read s.reg.pc.toNat = op)
include h hop

theorem clockCycle_fetchesAtPc : clockCycle true s = suppliedCycle op (decodeOpcode op) s := by
  obtain ⟨⟨-, hq⟩, hr, hc, haddr⟩ := h
  refine clockCycle_decode_supplied hq ?_
  rw [settledData_reading hr hc, haddr, hop]

theorem step_fetchesAtPc :
    step s = exec (decodeThree op (s.mem.read (s.reg.pc + 1).toNat) (s.mem.read (s.reg.pc + 2).toNat)) s := by
  obtain ⟨hwave, hqueue⟩ := h.1
  rw [step_boundary hwave hqueue, fetch_of_fetchesAtPc h, hop]

variable {m : MicroOp} {f : Byte → Byte → Byte} (himm : ImmediateOp op m f)
include himm

/-- In the second cycle the bus brings the byte at `pc + 1`. -/
theorem clockCycle_twice_fetchesAtPc : clockCycle true (clockCycle true s) =
    suppliedCycle (s.mem.read (s.reg.pc + 1).toNat) (fun t => runMicroOp m (popFront t))
      (suppliedCycle op (decodeOpcode op) s) := by
  have cycle1 := readsOnTo_decode himm s
  rw [clockCycle_fetchesAtPc h hop]
  refine clockCycle_queued_supplied cycle1.queue ?_
  rw [← cycle1.data, cycle1.data_eq h]

/-- An instruction with an immediate operand from memory: what its first cycle and its two cycles leave, and one step
is the two cycles. -/
theorem immediate_fetchesAtPc :
    ReadsOnTo (s.reg.pc + 1) s.reg.a op [m] s (clockCycle true s) ∧
    ReadsOnTo (s.reg.pc + 2) (f s.reg.a (s.mem.read (s.reg.pc + 1).toNat)) (s.mem.read (s.reg.pc + 1).toNat) [] s
      (clockCycle true (clockCycle true s)) ∧
    step s = .next (clockCycle true (clockCycle true s)) := by
  rw [clockCycle_twice_fetchesAtPc h hop himm, clockCycle_fetchesAtPc h hop, step_fetchesAtPc h hop]
  exact ⟨readsOnTo_decode himm s, readsOnTo_immediate himm _ s, himm.exec _ _ s⟩

end

/-- Settles O30: the two cycles of an immediate instruction, with opcode 0xA9. -/
theorem loadImmediateCycles : Obligations.LoadImmediateCycles := by
  intro s h hop imm c1 c2
  obtain ⟨cycle1, both, hstep⟩ := immediate_fetchesAtPc h hop immediateOp_lda
  exact ⟨cycle1.latch, cycle1.queue, cycle1.reg, cycle1.shows, both.latch, both.reg, both.queue, both.shows,
    both.sameMemory h.writeDone, both.data_eq h, hstep⟩

/-- Settles O31: the same with opcode 0x29; the corner cases are laws of the bitwise AND. -/
theorem andImmediateCycles : Obligations.AndImmediateCycles := by
  intro s h hop imm c1 c2
  obtain ⟨cycle1, both, hstep⟩ := immediate_fetchesAtPc h hop immediateOp_and
  have ha : c2.reg.a = s.reg.a &&& imm := by rw [both.reg]; rfl
  refine ⟨cycle1.latch, cycle1.queue, cycle1.reg, cycle1.shows, both.latch, both.reg, both.queue, both.shows,
    both.sameMemory h.writeDone, both.data_eq h, hstep, fun hones => ?ones, fun hzero => ?zero,
    fun hself => ?self⟩
  case ones => rw [ha, hones]; exact BitVec.and_allOnes
  case zero => rw [ha, hzero]; exact BitVec.and_zero
  case self => rw [ha, hself, BitVec.and_self]

/-- Settles O32: the one cycle of opcode 0x0A. -/
theorem shiftLeftCycle : Obligations.ShiftLeftCycle := by
  intro s h hop c1
  obtain ⟨-, hq⟩ := h.1
  have cycle : c1 = suppliedCycle opAsl decodeAsl s := clockCycle_fetchesAtPc h hop
  have run := readsOnTo_aslA s
  rw [← cycle, hq] at run
  have ha : c1.reg.a = aslResult s.reg.a := by rw [run.reg]
  refine ⟨run.latch, ?value, fun k hk => ?bits, ?bit0, ha, aslResult_iterate_eight s.reg.a, ?reg, run.queue,
    run.shows, run.sameMemory h.writeDone, run.data_eq h, ?step⟩
  case value => rw [ha, aslResult_toNat]
  case bits => rw [ha, aslResult_getLsbD_succ _ hk]
  case bit0 => rw [ha, aslResult_getLsbD_zero]
  case reg => rw [run.reg]
  case step => rw [step_fetchesAtPc h hop, cycle]; rfl

/-! ### The two micro-ops -/

/-- From an empty queue the only decode that queues the micro-op of an immediate instruction is that instruction's: the
others queue other micro-ops, or none. -/
theorem mem_queue_decodeOpcode_iff {s : State} (hq : s.queue = []) (op : Byte) :
    (.ldA ∈ (decodeOpcode op s).queue ↔ op = opLda) ∧ (.andA ∈ (decodeOpcode op s).queue ↔ op = opAnd) := by
  rcases opcode_cases op with rfl | rfl | rfl | rfl | rfl | hu
  · simp [show opLda ≠ opAnd by decide]
  · simp [show opAnd ≠ opLda by decide]
  · simp [hq, show opAsl ≠ opLda ∧ opAsl ≠ opAnd by decide]
  · simp [show opJmp ≠ opLda ∧ opJmp ≠ opAnd by decide]
  · simp [show opSta ≠ opLda ∧ opSta ≠ opAnd by decide]
  · obtain ⟨hlda, hand, -⟩ := (recognised_false_iff op).mp hu
    simp [decodeOpcode_unrecognised hu, hlda, hand]

/-- Settles O15: the micro-op is its definition; in the next cycle either the queue's family runs it, or the reset
family clears the queue and the accumulator. -/
theorem loadMicroOp : Obligations.LoadMicroOp := by
  refine ⟨fun _ => rfl, fun op _ hq => (mem_queue_decodeOpcode_iff hq op).1, fun s q hq => ?_⟩
  obtain ⟨-, hqueued, -⟩ := enginePriority s
  refine ⟨fun hr => hqueued .ldA q hr hq, fun hr => ?reset⟩
  case reset =>
    rw [engineCycle_reset hr]
    simp

/-- Settles O16: the micro-op is its definition. -/
theorem andMicroOp : Obligations.AndMicroOp :=
  ⟨fun _ => rfl, fun op _ hq => (mem_queue_decodeOpcode_iff hq op).2⟩

end Sys2Proof.Machine
end

section
/-! PROOFS. The jump JMP abs (42_jump.md). The two operand cycles write one lane of the scratch latch each, so what a
cycle of the jump leaves is said as in the accumulator part (`ReadsOnTo`), from the state with that latch. -/

namespace Sys2Proof.Machine

/-! ### Reading on with another word in the scratch latch -/

theorem withScratch_of_internal {w : Word} {s : State} (h : s.reg.internal = w) : withScratch w s = s := by
  subst h
  rfl

/-- What reading leaves alone does not depend on the scratch latch, so another word can be put there throughout. -/
theorem ReadsOnTo.withScratch {p : Word} {a b : Byte} {q : List MicroOp} {s t : State} (h : ReadsOnTo p a b q s t)
    (w : Word) : ReadsOnTo p a b q (withScratch w s) (withScratch w t) where
  reg := by simp only [Machine.withScratch, h.reg]
  queue := h.queue
  wave := h.wave
  pins := h.pins
  cs := h.cs
  mem := h.mem
  data := h.data

/-- The action of an operand cycle of format ABS: the latch goes into one lane of the scratch latch, then `pc` is set
from itself and the scratch latch, and addressed. -/
def latchAction (lane : Word → Byte → Word) (next : Word → Word → Word) (t : State) : State :=
  let w := lane t.reg.internal t.pins.dataBus
  let p := next t.reg.pc w
  { t with reg := { t.reg with internal := w, pc := p }
           queue := t.queue.tail
           pins := { t.pins with addressBus := p } }

/-- `LATCH_LO` advances (40_sequencer.md R125). -/
theorem latchLo_eq_latchAction :
    (fun t => runMicroOp .latchLo (popFront t)) = latchAction setLow (fun pc _ => incWord pc) := rfl

/-- "no increment, since the destination is exact" (R150). -/
theorem latchHiJmp_eq_latchAction :
    (fun t => runMicroOp .latchHiJmp (popFront t)) = latchAction setHigh (fun _ target => target) := rfl

theorem readsOnTo_latchAction (lane : Word → Byte → Word) (next : Word → Word → Word) (b : Byte) (s : State) :
    ReadsOnTo (next s.reg.pc (lane s.reg.internal b)) s.reg.a b s.queue.tail
      (withScratch (lane s.reg.internal b) s) (suppliedCycle b (latchAction lane next) s) := by
  rw [suppliedCycle_eq]
  constructor
  case mem => rw [settle_mem, settledMem_reading rfl]; exact atEdge_mem s true
  case data => rw [settle_nodes_data, settledData_settle]
  all_goals rfl

/-! ### The cycles of an instruction with an absolute operand -/

/-- An opcode of format ABS whose second operand cycle runs micro-op `m`: its decode cycle queues `LATCH_LO` and `m`,
and its meaning is these three cycles. -/
structure AbsoluteOp (op : Byte) (m : MicroOp) : Prop where
  decode : decodeOpcode op = accumulatorAction (fun a _ => a) (fun _ => [.latchLo, m])
  exec (lo hi : Byte) (s : State) : exec (decodeThree op lo hi) s =
    .next (suppliedCycle hi (fun t => runMicroOp m (popFront t))
      (suppliedCycle lo (fun t => runMicroOp .latchLo (popFront t)) (suppliedCycle op (decodeOpcode op) s)))

theorem absoluteOp_jmp : AbsoluteOp opJmp .latchHiJmp where
  decode := rfl
  exec lo hi s := by
    rw [decodeThree_jmp, exec, execJmpAbs, lowByte_absoluteAddress, highByte_absoluteAddress]
    rfl

section
variable {op : Byte} {m : MicroOp} (habs : AbsoluteOp op m)
include habs

theorem readsOnTo_decode_absolute (s : State) :
    ReadsOnTo (s.reg.pc + 1) s.reg.a op [.latchLo, m] s (suppliedCycle op (decodeOpcode op) s) := by
  rw [habs.decode]
  exact readsOnTo_suppliedCycle (fun a _ => a) (fun _ => [.latchLo, m]) op s

/-- The decode cycle and the cycle of the low address byte. -/
theorem readsOnTo_lowOperand (lo : Byte) (s : State) :
    ReadsOnTo (s.reg.pc + 2) s.reg.a lo [m] (withScratch (setLow s.reg.internal lo) s)
      (suppliedCycle lo (fun t => runMicroOp .latchLo (popFront t)) (suppliedCycle op (decodeOpcode op) s)) := by
  have cycle1 := readsOnTo_decode_absolute habs s
  have cycle2 := readsOnTo_latchAction setLow (fun pc _ => incWord pc) lo (suppliedCycle op (decodeOpcode op) s)
  rw [cycle1.reg, cycle1.queue, ← latchLo_eq_latchAction] at cycle2
  rw [← incWord_twice]
  exact (cycle1.withScratch _).trans cycle2

variable {s : State} (h : FetchesAtPc s) (hop : s.mem.read s.reg.pc.toNat = op)
include h hop

/-- In the second cycle the bus brings the byte at `pc + 1`. -/
theorem clockCycle_lowOperand : clockCycle true (clockCycle true s) =
    suppliedCycle (s.mem.read (s.reg.pc + 1).toNat) (fun t => runMicroOp .latchLo (popFront t))
      (suppliedCycle op (decodeOpcode op) s) := by
  have cycle1 := readsOnTo_decode_absolute habs s
  rw [clockCycle_fetchesAtPc h hop]
  refine clockCycle_queued_supplied cycle1.queue ?_
  rw [← cycle1.data, cycle1.data_eq h]

/-- In the third cycle the bus brings the byte at `pc + 2`. -/
theorem clockCycle_highOperand : clockCycle true (clockCycle true (clockCycle true s)) =
    suppliedCycle (s.mem.read (s.reg.pc + 2).toNat) (fun t => runMicroOp m (popFront t))
      (clockCycle true (clockCycle true s)) := by
  have cycle2 := readsOnTo_lowOperand habs (s.mem.read (s.reg.pc + 1).toNat) s
  rw [clockCycle_lowOperand habs h hop]
  refine clockCycle_queued_supplied cycle2.queue ?_
  rw [← cycle2.data, cycle2.data_eq h]
  rfl

/-- An instruction with an absolute operand from memory: what its first cycle and its first two cycles leave, and one
step is three cycles. -/
theorem absolute_fetchesAtPc :
    ReadsOnTo (s.reg.pc + 1) s.reg.a op [.latchLo, m] s (clockCycle true s) ∧
    ReadsOnTo (s.reg.pc + 2) s.reg.a (s.mem.read (s.reg.pc + 1).toNat) [m]
      (withScratch (setLow s.reg.internal (s.mem.read (s.reg.pc + 1).toNat)) s) (clockCycle true (clockCycle true s)) ∧
    step s = .next (clockCycle true (clockCycle true (clockCycle true s))) := by
  rw [clockCycle_highOperand habs h hop, clockCycle_lowOperand habs h hop, clockCycle_fetchesAtPc h hop,
    step_fetchesAtPc h hop]
  exact ⟨readsOnTo_decode_absolute habs s, readsOnTo_lowOperand habs _ s, habs.exec _ _ s⟩

end

/-! ### The jump -/

/-- All three cycles: the word assembled in the scratch latch is also the new `pc`. -/
theorem readsOnTo_jump (lo hi : Byte) (s : State) :
    ReadsOnTo (absoluteAddress lo hi) s.reg.a hi [] (withScratch (absoluteAddress lo hi) s)
      (suppliedCycle hi (fun t => runMicroOp .latchHiJmp (popFront t))
        (suppliedCycle lo (fun t => runMicroOp .latchLo (popFront t))
          (suppliedCycle opJmp (decodeOpcode opJmp) s))) := by
  have first := readsOnTo_lowOperand absoluteOp_jmp lo s
  have last := readsOnTo_latchAction setHigh (fun _ target => target) hi
    (suppliedCycle lo (fun t => runMicroOp .latchLo (popFront t)) (suppliedCycle opJmp (decodeOpcode opJmp) s))
  have target : setHigh (withScratch (setLow s.reg.internal lo) s).reg.internal hi = absoluteAddress lo hi :=
    setHigh_setLow s.reg.internal lo hi
  rw [first.reg, first.queue, target, ← latchHiJmp_eq_latchAction] at last
  exact (first.withScratch _).trans last

/-- Settles O27: the operand is put together from its own two bytes. -/
theorem jumpResult : Obligations.JumpResult := by
  intro addr s hdone
  have run := readsOnTo_jump (lowByte addr) (highByte addr) s
  rw [absoluteAddress_bytes] at run
  exact ⟨_, rfl, run.reg, run.queue, run.wave, run.pins, run.cs, run.sameMemory hdone⟩

/-- The three cycles of a jump in memory. -/
theorem readsOnTo_jump_fetchesAtPc {s : State} (h : FetchesAtPc s) (hop : s.mem.read s.reg.pc.toNat = opJmp)
    {target : Word}
    (htarget : absoluteAddress (s.mem.read (s.reg.pc + 1).toNat) (s.mem.read (s.reg.pc + 2).toNat) = target) :
    ReadsOnTo target s.reg.a (s.mem.read (s.reg.pc + 2).toNat) [] (withScratch target s)
      (clockCycle true (clockCycle true (clockCycle true s))) := by
  rw [clockCycle_highOperand absoluteOp_jmp h hop, clockCycle_lowOperand absoluteOp_jmp h hop, ← htarget]
  exact readsOnTo_jump _ _ s

/-- Settles O33: what one, two and three cycles leave; after the second the scratch latch has its low lane. -/
theorem jumpCycles : Obligations.JumpCycles := by
  intro s h hop lo hi c1 c2 c3
  obtain ⟨cycle1, cycle2, hstep⟩ := absolute_fetchesAtPc absoluteOp_jmp h hop
  have cycle3 := readsOnTo_jump_fetchesAtPc h hop rfl
  have hlow : lowByte c2.reg.internal = lo := by
    rw [cycle2.reg]
    exact lowByte_setLow s.reg.internal lo
  have hreg : c2.reg = { s.reg with internal := c2.reg.internal, pc := s.reg.pc + 2 } := by
    rw [cycle2.reg]
    rfl
  exact ⟨cycle1.latch, cycle1.queue, cycle1.reg, cycle1.shows, cycle2.latch, cycle2.queue, hlow, hreg,
    cycle2.shows, cycle3.latch, cycle3.reg, cycle3.queue, cycle3.shows, cycle3.sameMemory h.writeDone,
    cycle3.data_eq h, hstep⟩

/-! ### A jump to its own address -/

/-- After a clock cycle the nodes follow from the pins, apart from the data node and `cs`. -/
theorem clockCycle_nodes (r : Bool) (s : State) : (clockCycle r s).nodes =
    { clk := true, resetEn := r, data := (clockCycle r s).nodes.data, addr := (clockCycle r s).pins.addressBus,
      rwb := (clockCycle r s).pins.rwb, we := !(clockCycle r s).pins.rwb, cs := (clockCycle r s).nodes.cs } := by
  ext <;> simp [clockCycle_eq]

/-- From a selected memory, what reading leaves determines the state that a clock cycle ends in. -/
theorem ReadsOnTo.clockCycle_unique {p : Word} {a b : Byte} {q : List MicroOp} {s u u' : State} (hs : FetchesAtPc s)
    (h : ReadsOnTo p a b q s (clockCycle true u)) (h' : ReadsOnTo p a b q s (clockCycle true u')) :
    clockCycle true u = clockCycle true u' := by
  have hnodes : (clockCycle true u).nodes = (clockCycle true u').nodes := by
    rw [clockCycle_nodes, clockCycle_nodes true u', h.data_eq hs, h'.data_eq hs, h.pins, h'.pins, h.cs, h'.cs]
  exact State.ext hnodes (h.pins.trans h'.pins.symm) (h.reg.trans h'.reg.symm) (h.queue.trans h'.queue.symm)
    (h.mem.trans h'.mem.symm) (h.wave.trans h'.wave.symm)

/-- Reading on to an empty queue leads to a boundary that fetches at the new `pc`, from the same memory. -/
theorem ReadsOnTo.fetchesAtPc {p : Word} {a b : Byte} {s t : State} (h : ReadsOnTo p a b [] s t)
    (hs : FetchesAtPc s) : FetchesAtPc t ∧ t.reg.pc = p ∧ t.mem = s.mem := by
  obtain ⟨⟨hwave, -⟩, hr, hc, -⟩ := hs
  have hpc : t.reg.pc = p := by rw [h.reg]
  refine ⟨⟨⟨h.wave.trans hwave, h.queue⟩, by rw [h.pins], h.cs.trans hc, h.shows.trans hpc.symm⟩, hpc, ?_⟩
  rw [h.mem, settledMem_reading hr]

/-- A boundary that fetches at `pc` a jump to `pc`. -/
structure JumpsToItself (s : State) : Prop where
  fetches : FetchesAtPc s
  opcode : s.mem.read s.reg.pc.toNat = opJmp
  low : s.mem.read (s.reg.pc + 1).toNat = lowByte s.reg.pc
  high : s.mem.read (s.reg.pc + 2).toNat = highByte s.reg.pc

/-- One turn of the loop ends in a clock cycle and at the same jump, with its address in the scratch latch. -/
theorem JumpsToItself.turn {s : State} (h : JumpsToItself s) : ∃ u, step s = .next (clockCycle true u) ∧
    ReadsOnTo s.reg.pc s.reg.a (highByte s.reg.pc) [] (withScratch s.reg.pc s) (clockCycle true u) ∧
    JumpsToItself (clockCycle true u) := by
  obtain ⟨hfetches, hop, hlow, hhigh⟩ := h
  obtain ⟨-, -, hstep⟩ := absolute_fetchesAtPc absoluteOp_jmp hfetches hop
  have run := readsOnTo_jump_fetchesAtPc hfetches hop (target := s.reg.pc)
    (by rw [hlow, hhigh, absoluteAddress_bytes])
  rw [hhigh] at run
  obtain ⟨hagain, hpc, hmem⟩ := run.fetchesAtPc hfetches
  refine ⟨_, hstep, run, hagain, ?_, ?_, ?_⟩ <;> rw [hmem, hpc]
  exacts [hop, hlow, hhigh]

/-- Settles O55: the first turn leaves the jump's address in the scratch latch, so the second turn starts from what it
leaves, and both turns together leave no more than the first. -/
theorem jumpToItselfIdles : Obligations.JumpToItselfIdles := by
  intro s t hfetches hop hlow hhigh hstep
  obtain ⟨u, hstep1, turn1, hagain⟩ := JumpsToItself.turn ⟨hfetches, hop, hlow, hhigh⟩
  obtain rfl : clockCycle true u = t := Host.Outcome.next.inj (hstep1.symm.trans hstep)
  obtain ⟨u', hstep2, turn2, -⟩ := hagain.turn
  have hpc : (clockCycle true u).reg.pc = s.reg.pc := by rw [turn1.reg]
  have ha : (clockCycle true u).reg.a = s.reg.a := by rw [turn1.reg]
  have hinternal : (clockCycle true u).reg.internal = s.reg.pc := by rw [turn1.reg]; rfl
  rw [hpc, ha, withScratch_of_internal hinternal] at turn2
  have hsame : clockCycle true u = clockCycle true u' :=
    ReadsOnTo.clockCycle_unique (s := withScratch s.reg.pc s) hfetches turn1 (turn1.trans turn2)
  refine ⟨hpc, ?_⟩
  rw [hstep2, ← hsame]

/-! ### The micro-op -/

/-- From an empty queue the only decode that queues the high-byte micro-op of a jump, or of a store, is that
instruction's: the others queue other micro-ops, or none. -/
theorem latchHi_mem_queue_decodeOpcode_iff {s : State} (hq : s.queue = []) (op : Byte) :
    (.latchHiJmp ∈ (decodeOpcode op s).queue ↔ op = opJmp) ∧
    (.latchHiSta ∈ (decodeOpcode op s).queue ↔ op = opSta) := by
  rcases opcode_cases op with rfl | rfl | rfl | rfl | rfl | hu
  · simp [show opLda ≠ opJmp ∧ opLda ≠ opSta by decide]
  · simp [show opAnd ≠ opJmp ∧ opAnd ≠ opSta by decide]
  · simp [hq, show opAsl ≠ opJmp ∧ opAsl ≠ opSta by decide]
  · simp [show opJmp ≠ opSta by decide]
  · simp [show opSta ≠ opJmp by decide]
  · obtain ⟨-, -, -, hjmp, hsta⟩ := (recognised_false_iff op).mp hu
    simp [decodeOpcode_unrecognised hu, hjmp, hsta]

/-- Settles O18: the high lane is replaced, the low lane kept, and the word goes to `pc` and the address bus. -/
theorem jumpMicroOp : Obligations.JumpMicroOp := by
  refine ⟨fun s => ⟨highByte_setHigh s.reg.internal s.pins.dataBus, lowByte_setHigh s.reg.internal s.pins.dataBus, rfl⟩,
    fun op s hq => ⟨(latchHi_mem_queue_decodeOpcode_iff hq op).1, fun hop => ?queue⟩⟩
  case queue =>
    subst hop
    exact decodeJmp_queue s

end Sys2Proof.Machine
end

section
/-! PROOFS. The store STA abs (43_store.md). Its first two cycles read like those of the jump (`ReadsOnTo`); the third
is the write cycle (`WritesTo`), which is still held when the next instruction is fetched. -/

namespace Sys2Proof.Machine

/-! ### The micro-op -/

/-- Settles O19: the high lane is replaced, the low lane kept; each other micro-op, every decode and the reset action
leave the pin and the latch. -/
theorem storeMicroOp : Obligations.StoreMicroOp := by
  refine ⟨fun s =>
      ⟨highByte_setHigh s.reg.internal s.pins.dataBus, lowByte_setHigh s.reg.internal s.pins.dataBus, rfl⟩,
    fun m s hm => ?others, fun op s => ?decode, fun s => ⟨rfl, rfl⟩,
    fun op s hq => ⟨(latchHi_mem_queue_decodeOpcode_iff hq op).2, fun hop => ?queue⟩⟩
  case others =>
    cases m with
    | latchHiSta => exact absurd rfl hm
    | rvLo | rvHi | ldA | andA | latchLo | latchHiJmp => exact ⟨rfl, rfl⟩
  case decode =>
    obtain ⟨-, -, -, -, -, hrwb, hlatch⟩ := decodeOpcode_frame op s
    exact ⟨hrwb, hlatch⟩
  case queue =>
    subst hop
    exact decodeSta_queue s

/-! ### What the write cycle leaves -/

/-- The machine has gone from `s` to `t` by reading and then one write cycle at `addr`, which `t` still holds: the
accumulator is in the latch and on the bus and, if the memory is selected, at `addr`; `pc` is `p`, the queue `q`, and no
other byte has changed after the end of the write cycle that `s` may have held. -/
structure WritesTo (addr p : Word) (q : List MicroOp) (s t : State) : Prop where
  reg : t.reg = { s.reg with internal := addr, pc := p }
  queue : t.queue = q
  wave : t.wave = s.wave
  pins : t.pins = { clock := true, resetEn := true, dataBus := s.reg.a, rwb := false, addressBus := addr }
  nodes : t.nodes = { clk := true, resetEn := true, data := s.reg.a, addr := addr, rwb := false, we := true,
                      cs := s.nodes.cs }
  mem (b : Nat) : t.mem.read b =
    if s.nodes.cs = true ∧ b = addr.toNat then s.reg.a else (settledMem s).read b

theorem writesTo_suppliedCycle (b : Byte) (s : State) :
    WritesTo (setHigh s.reg.internal b) (s.reg.pc + 1) s.queue.tail s
      (suppliedCycle b (fun t => runMicroOp .latchHiSta (popFront t)) s) := by
  rw [suppliedCycle_eq]
  constructor
  case nodes => ext <;> simp [runMicroOp, settledData_writing]
  case mem => simp [runMicroOp, read_settledMem]
  all_goals rfl

/-- Reading on, whatever it puts in the scratch latch, and then a write cycle. -/
theorem ReadsOnTo.writesTo {w p addr p' : Word} {b : Byte} {q q' : List MicroOp} {s t u : State}
    (h : ReadsOnTo p s.reg.a b q (Machine.withScratch w s) t) (h' : WritesTo addr p' q' t u) :
    WritesTo addr p' q' s u where
  reg := by rw [h'.reg, h.reg]; rfl
  queue := h'.queue
  wave := h'.wave.trans h.wave
  pins := by rw [h'.pins, h.reg]
  nodes := by rw [h'.nodes, h.reg, h.cs]; rfl
  mem k := by rw [h'.mem, h.cs, h.reg, settledMem_reading (by rw [h.pins]), h.mem]; rfl

namespace WritesTo

variable {addr p : Word} {q : List MicroOp} {s t : State}

theorem cs (h : WritesTo addr p q s t) : t.nodes.cs = s.nodes.cs := by rw [h.nodes]

theorem latch (h : WritesTo addr p q s t) : t.pins.dataBus = s.reg.a := by rw [h.pins]

theorem shows (h : WritesTo addr p q s t) : t.pins.addressBus = addr := by rw [h.pins]

theorem pin (h : WritesTo addr p q s t) : t.pins.rwb = false := by rw [h.pins]

theorem node (h : WritesTo addr p q s t) : t.nodes.rwb = false := by rw [h.nodes]

/-- In the same step the selected memory has the byte (R162). -/
theorem read_addr (h : WritesTo addr p q s t) (hc : s.nodes.cs = true) : t.mem.read addr.toNat = s.reg.a := by
  simp [h.mem, hc]

theorem read_other (h : WritesTo addr p q s t) (hdone : WriteDone s) {b : Nat} (hb : b ≠ addr.toNat) :
    t.mem.read b = s.mem.read b := by
  simp [h.mem, hb, read_settledMem_held hdone]

/-- A memory that is not selected stores nothing (70_reset_and_hazards.md R212). -/
theorem read_unselected (h : WritesTo addr p q s t) (hdone : WriteDone s) (hc : s.nodes.cs = false) (b : Nat) :
    t.mem.read b = s.mem.read b := by
  simp [h.mem, hc, read_settledMem_held hdone]

end WritesTo

/-! ### The store -/

theorem absoluteOp_sta : AbsoluteOp opSta .latchHiSta where
  decode := rfl
  exec lo hi s := by
    rw [decodeThree_sta, exec, execStaAbs, lowByte_absoluteAddress, highByte_absoluteAddress]
    rfl

/-- All three cycles: the word assembled in the scratch latch is the address of the write. -/
theorem writesTo_store (lo hi : Byte) (s : State) :
    WritesTo (absoluteAddress lo hi) (s.reg.pc + 3) [] s
      (suppliedCycle hi (fun t => runMicroOp .latchHiSta (popFront t))
        (suppliedCycle lo (fun t => runMicroOp .latchLo (popFront t))
          (suppliedCycle opSta (decodeOpcode opSta) s))) := by
  have first := readsOnTo_lowOperand absoluteOp_sta lo s
  have last := writesTo_suppliedCycle hi
    (suppliedCycle lo (fun t => runMicroOp .latchLo (popFront t)) (suppliedCycle opSta (decodeOpcode opSta) s))
  have target : setHigh (withScratch (setLow s.reg.internal lo) s).reg.internal hi = absoluteAddress lo hi :=
    setHigh_setLow s.reg.internal lo hi
  rw [first.reg, first.queue, target] at last
  have hpc : s.reg.pc + 2 + 1 = s.reg.pc + 3 := BitVec.add_assoc s.reg.pc 2 1
  rw [← hpc]
  exact first.writesTo last

theorem exec_staAbs_writesTo (addr : Word) (s : State) :
    ∃ t, exec (.staAbs addr) s = .next t ∧ WritesTo addr (s.reg.pc + 3) [] s t := by
  have run := writesTo_store (lowByte addr) (highByte addr) s
  rw [absoluteAddress_bytes] at run
  exact ⟨_, rfl, run⟩

theorem writesTo_of_exec_staAbs {addr : Word} {s t : State} (h : exec (.staAbs addr) s = .next t) :
    WritesTo addr (s.reg.pc + 3) [] s t := by
  obtain ⟨t', hexec, run⟩ := exec_staAbs_writesTo addr s
  obtain rfl : t' = t := Host.Outcome.next.inj (hexec.symm.trans h)
  exact run

/-- Settles O28: the operand is put together from its own two bytes, and the third cycle writes there. -/
theorem storeResult : Obligations.StoreResult := by
  intro addr s hdone
  obtain ⟨t, hexec, run⟩ := exec_staAbs_writesTo addr s
  refine ⟨t, hexec, run.reg, run.queue, run.wave, run.pins, ?addr, ?data, run.node, ?we, run.cs, run.read_addr,
    fun hc => run.read_unselected hdone hc addr.toNat, fun _ => run.read_other hdone⟩
  all_goals rw [run.nodes]

/-! ### The store from memory, cycle by cycle -/

/-- After a clock cycle that reads, the read/write-bar node says "read". -/
theorem ReadsOnTo.clockCycle_rwb {p : Word} {a b : Byte} {q : List MicroOp} {s u : State}
    (h : ReadsOnTo p a b q s (clockCycle true u)) : (clockCycle true u).nodes.rwb = true := by
  rw [clockCycle_nodes, h.pins]

theorem writesTo_store_fetchesAtPc {s : State} (h : FetchesAtPc s) (hop : s.mem.read s.reg.pc.toNat = opSta) :
    WritesTo (absoluteAddress (s.mem.read (s.reg.pc + 1).toNat) (s.mem.read (s.reg.pc + 2).toNat)) (s.reg.pc + 3) []
      s (clockCycle true (clockCycle true (clockCycle true s))) := by
  rw [clockCycle_highOperand absoluteOp_sta h hop, clockCycle_lowOperand absoluteOp_sta h hop]
  exact writesTo_store _ _ s

/-- Settles O34: the first two cycles read on, and the third writes. -/
theorem storeCycles : Obligations.StoreCycles := by
  intro s h hop lo hi c1 c2 c3
  obtain ⟨cycle1, cycle2, hstep⟩ := absolute_fetchesAtPc absoluteOp_sta h hop
  have cycle3 := writesTo_store_fetchesAtPc h hop
  have hdone := h.writeDone
  have hlow : lowByte c2.reg.internal = lo := by
    rw [cycle2.reg]
    exact lowByte_setLow s.reg.internal lo
  have hreg : c2.reg = { s.reg with internal := c2.reg.internal, pc := s.reg.pc + 2 } := by
    rw [cycle2.reg]
    rfl
  obtain ⟨-, -, hc, -⟩ := h
  exact ⟨cycle1.latch, cycle1.queue, cycle1.clockCycle_rwb, cycle1.reg, cycle1.shows, cycle2.latch, cycle2.queue,
    hlow, cycle2.clockCycle_rwb, hreg, cycle2.shows, cycle2.sameMemory hdone, cycle3.reg, cycle3.queue,
    cycle3.shows, cycle3.latch, cycle3.pin, cycle3.node, cycle3.read_addr hc,
    fun _ => cycle3.read_other hdone, hstep⟩

/-! ### The instruction after a store (R163, conflict C5) -/

/-- While a write is held, a read of a selected memory brings the held byte at its address, and else the byte there. -/
theorem busRead_lowStep_writing {s : State} (hw : s.pins.rwb = false) (hc : s.nodes.cs = true) (a : Word) :
    busRead (lowStep s) a = if a = s.pins.addressBus then s.pins.dataBus else s.mem.read a.toNat := by
  rw [busRead_lowStep, read_settledMem]
  simp [hw, hc, BitVec.toNat_inj]

/-- While a write is held, the opcode is the byte in the latch, and the byte at `pc` is skipped. -/
theorem fetch_writing {s : State} (hw : s.pins.rwb = false) :
    fetch s = decodeThree s.pins.dataBus (busRead (lowStep s) (s.reg.pc + 1)) (busRead (lowStep s) (s.reg.pc + 2)) := by
  rw [fetch_eq, settledData_writing hw, incWord_twice, incWord_eq]

/-- So a memory that differs only at `pc` makes the same instruction. -/
theorem fetch_writing_skips_pc {s : State} {m : Memory} (hw : s.pins.rwb = false) (hc : s.nodes.cs = true)
    (hm : ∀ b, b ≠ s.reg.pc.toNat → m.read b = s.mem.read b) : fetch { s with mem := m } = fetch s := by
  have skipped (k : Word) (hk : k ≠ 0) :
      busRead (lowStep { s with mem := m }) (s.reg.pc + k) = busRead (lowStep s) (s.reg.pc + k) := by
    have hne : (s.reg.pc + k).toNat ≠ s.reg.pc.toNat := fun h => hk (by simpa using BitVec.eq_of_toNat_eq h)
    rw [busRead_lowStep_writing hw hc, busRead_lowStep_writing (s := { s with mem := m }) hw hc, hm _ hne]
  rw [fetch_writing hw, fetch_writing (s := { s with mem := m }) hw, skipped 1 (by decide), skipped 2 (by decide)]

/-- The engine leaves in the latch the byte that it decodes. -/
theorem clockCycle_boundary_latch {s : State} (hq : s.queue = []) :
    (clockCycle true s).pins.dataBus = settledData s := by
  rw [clockCycle_boundary hq, busCycle_eq, settle_pins]
  obtain ⟨-, -, -, -, -, -, hlatch⟩ := decodeOpcode_frame (settledData s) (forceRead (atEdge s true))
  rw [hlatch, forceRead_pins_dataBus, atEdge_pins_dataBus]

/-- Settles O37: the boundary after a store still holds its write, which has reached the memory, so that reads bring
the bytes of the memory. -/
theorem storedByteIsTheNextOpcode : Obligations.StoredByteIsTheNextOpcode := by
  intro addr s t hwave hc hexec
  have run := writesTo_of_exec_staAbs hexec
  have hwriting := run.pin
  have hpc : t.reg.pc = s.reg.pc + 3 := by rw [run.reg]
  have hcs : t.nodes.cs = true := run.cs.trans hc
  have hread (a : Word) : busRead (lowStep t) a = t.mem.read a.toNat := by
    rw [busRead_lowStep_writing hwriting hcs]
    split
    · next ha => rw [ha, run.latch, run.shows, run.read_addr hc]
    · rfl
  refine ⟨?step, ?latch, fun b => ?skipped⟩
  case step =>
    rw [step_boundary (run.wave.trans hwave) run.queue, fetch_writing hwriting, hread, hread, run.latch, hpc,
      BitVec.add_assoc, BitVec.add_assoc]
    rfl
  case latch => rw [clockCycle_boundary_latch run.queue, settledData_writing hwriting, run.latch]
  case skipped =>
    rw [← hpc]
    exact fetch_writing_skips_pc hwriting hcs fun _ => Memory.read_write_other t.mem b

/-! ### Nothing else changes memory (R164) -/

/-- A cycle whose action leaves memory and pin alone reads: it changes no byte, and holds no write at its end. -/
theorem busCycle_reads {act : State → State} (hmem : ∀ u, (act u).mem = u.mem)
    (hrwb : ∀ u, (act u).pins.rwb = u.pins.rwb) {s : State} (hdone : WriteDone s) :
    SameMemory s (busCycle act s) ∧ WriteDone (busCycle act s) := by
  have hread : (act (forceRead (atEdge s true))).pins.rwb = true := hrwb _
  rw [busCycle_eq]
  refine ⟨fun b => ?_, by simp [WriteDone, hread]⟩
  rw [settle_mem, settledMem_reading hread, hmem, forceRead_mem, atEdge_mem, read_settledMem_held hdone]

/-- The fallback cycle and the two vector cycles read. -/
theorem sameMemory_execUndef {op : Byte} {s t : State} (hdone : WriteDone s) (h : exec (.undef op) s = .next t) :
    SameMemory s t := by
  cases h
  obtain ⟨same1, done1⟩ :=
    busCycle_reads (act := fun u => decodeUndef (setLatch op u)) (fun _ => rfl) (fun _ => rfl) hdone
  obtain ⟨same2, done2⟩ :=
    busCycle_reads (act := fun u => microRvLo (popFront u)) (fun _ => rfl) (fun _ => rfl) done1
  obtain ⟨same3, -⟩ :=
    busCycle_reads (act := fun u => microRvHi (popFront u)) (fun _ => rfl) (fun _ => rfl) done2
  exact fun b => (same3 b).trans ((same2 b).trans (same1 b))

/-- Every instruction but the store only reads. -/
theorem sameMemory_exec {i : Instr} {s t : State} (hdone : WriteDone s) (hi : ∀ addr, i ≠ .staAbs addr)
    (h : exec i s = .next t) : SameMemory s t := by
  cases i with
  | ldaImm imm =>
    cases h
    exact (readsOnTo_immediate immediateOp_lda imm s).sameMemory hdone
  | andImm imm =>
    cases h
    exact (readsOnTo_immediate immediateOp_and imm s).sameMemory hdone
  | aslA =>
    cases h
    exact (readsOnTo_aslA s).sameMemory hdone
  | jmpAbs addr =>
    cases h
    exact (readsOnTo_jump (lowByte addr) (highByte addr) s).sameMemory hdone
  | staAbs addr => exact absurd rfl (hi addr)
  | undef op => exact sameMemory_execUndef hdone h

/-- Settles O48: at a boundary the step is the meaning of the fetched instruction. -/
theorem memoryChangesOnlyByStore : Obligations.MemoryChangesOnlyByStore := by
  intro s t hboundary hdone hstep
  obtain ⟨hwave, hqueue⟩ := hboundary
  rw [step_boundary hwave hqueue] at hstep
  refine ⟨fun hother => sameMemory_exec hdone hother hstep, fun addr hfetch b hb => ?store⟩
  case store =>
    rw [hfetch] at hstep
    exact (writesTo_of_exec_staAbs hstep).read_other hdone hb

end Sys2Proof.Machine
end

section
/-! PROOFS. Exceptions (60_exceptions.md): the reset action from its two causes, the pin and the unrecognised opcode, and
the vector fetch. Every cycle of them reads, so what each leaves is written out as a state (`afterReading`); the cause of
the reset is then visible in reset-enable and the latch only, which the first vector cycle overwrites. -/

namespace Sys2Proof.Machine

/-! ### What a cycle that reads leaves -/

/-- The state after one clock cycle, or several, that only read, from `s`: reset-enable was last sampled as `e`, the
latch holds `b`, the processor shows `addr`, the registers are `r` and the queue `q`. The end of the write cycle that
`s` may have held is in the memory, and the bus brings the byte at `addr`. -/
def afterReading (e : Bool) (b : Byte) (addr : Word) (r : Regs) (q : List MicroOp) (s : State) : State where
  nodes := { clk := true, resetEn := e, data := busRead (lowStep s) addr, addr := addr, rwb := true, we := false,
             cs := s.nodes.cs }
  pins := { clock := true, resetEn := e, dataBus := b, rwb := true, addressBus := addr }
  reg := r
  queue := q
  mem := settledMem s
  wave := s.wave

/-- Such a state is where a clock cycle ends whose engine leaves the pin at "read", the nodes and the memory alone. -/
theorem settle_eq_afterReading {e : Bool} {b : Byte} {addr : Word} {r : Regs} {q : List MicroOp} {s u : State}
    (hu : u = { atEdge s e with
      pins := { clock := true, resetEn := e, dataBus := b, rwb := true, addressBus := addr }
      reg := r
      queue := q }) : settle u = afterReading e b addr r q s := by
  have hnodes : u.nodes = (atEdge s e).nodes := by rw [hu]
  have hpins : u.pins = { clock := true, resetEn := e, dataBus := b, rwb := true, addressBus := addr } := by rw [hu]
  have hmem : u.mem = settledMem s := by rw [hu, atEdge_mem]
  have hdata : settledData u = busRead (lowStep s) addr := by
    simp [settledData, busRead_lowStep, hnodes, hpins, hmem]
  refine State.ext ?nodes hpins (by rw [hu]; rfl) (by rw [hu]; rfl) ?mem (by rw [hu]; rfl)
  case nodes => ext <;> simp [afterReading, hnodes, hpins, hdata]
  case mem => rw [settle_mem, settledMem_reading (by rw [hpins]), hmem]; rfl

section
variable {e : Bool} {b : Byte} {addr : Word} {r : Regs} {q : List MicroOp} {s : State}

/-- The memory's tick has already put on the bus the byte that the next cycle finds there. -/
theorem settledData_afterReading : settledData (afterReading e b addr r q s) = busRead (lowStep s) addr := by
  cases hc : s.nodes.cs <;> simp [settledData, afterReading, busRead_lowStep, hc]

theorem settledMem_afterReading : settledMem (afterReading e b addr r q s) = settledMem s := settledMem_reading rfl

/-- Reading changes nothing that a later read brings from a selected memory, and an unselected memory keeps the bus. -/
theorem busRead_afterReading (a : Word) :
    busRead (lowStep (afterReading e b addr r q s)) a = busRead (lowStep s) a := by
  rw [busRead_lowStep, busRead_lowStep, settledMem_afterReading, settledData_afterReading, busRead_lowStep]
  cases hc : s.nodes.cs <;> simp [afterReading, hc]

/-- So of the cycles before a cycle that reads, nothing is left but what that cycle itself has kept. -/
theorem afterReading_afterReading (e' : Bool) (b' : Byte) (addr' : Word) (r' : Regs) (q' : List MicroOp) :
    afterReading e' b' addr' r' q' (afterReading e b addr r q s) = afterReading e' b' addr' r' q' s := by
  rw [afterReading, busRead_afterReading, settledMem_afterReading]
  rfl

end

/-! ### The reset cycle (R170 cycle 1, R175, R177) -/

/-- The registers at the values of the reset action, with a word in `pc`, which it leaves (10_state.md R42, D4). -/
def resetRegs (pc : Word) : Regs := { a := 0, x := 0, y := 0, sp := Config.spReset, pc := pc, internal := 0 }

/-- The state after a reset cycle from `s`. Of its cause, the pin or an opcode, it shows reset-enable and the latch. -/
def resetTaken (e : Bool) (b : Byte) (s : State) : State :=
  afterReading e b Config.vectorLo (resetRegs s.reg.pc) [.rvLo, .rvHi] s

theorem suppliedCycle_decodeUndef (op : Byte) (s : State) :
    suppliedCycle op decodeUndef s = resetTaken true op s := by
  rw [suppliedCycle_eq]
  exact settle_eq_afterReading rfl

theorem clockCycle_pinReset (s : State) : clockCycle false s = resetTaken false (settledData s) s := by
  rw [clockCycle_reset, ← atEdge_pins_dataBus s false]
  exact settle_eq_afterReading rfl

/-- Settles O20: a reset cycle reads, so the held write that it ends is all that it does to the memory. -/
theorem pinResetFromAnyState : Obligations.PinResetFromAnyState := by
  intro s hdone
  rw [clockCycle_pinReset]
  exact ⟨rfl, rfl, rfl, rfl, rfl, rfl, rfl, rfl, rfl, rfl, rfl, rfl, read_settledMem_held hdone⟩

/-! ### The vector fetch (R170 cycles 2 and 3) -/

/-- The word that the bus brings from the two bytes of the reset vector (20_memory.md R65). -/
def vectorWord (s : State) : Word :=
  wordOf (busRead (lowStep s) Config.vectorHi) (busRead (lowStep s) Config.vectorLo)

/-- The state after a reset cycle from `s` and the fetch of the low vector byte. -/
def vectorLowFetched (s : State) : State :=
  afterReading true (busRead (lowStep s) Config.vectorLo) Config.vectorHi
    (resetRegs (setLow s.reg.pc (busRead (lowStep s) Config.vectorLo))) [.rvHi] s

/-- The state after a reset cycle from `s` and the whole vector fetch, at the next instruction boundary. -/
def vectorFetched (s : State) : State :=
  afterReading true (busRead (lowStep s) Config.vectorHi) (vectorWord s) (resetRegs (vectorWord s)) [] s

/-- The first vector cycle forgets what caused the reset. -/
theorem busCycle_rvLo (e : Bool) (b : Byte) (s : State) :
    busCycle (fun t => runMicroOp .rvLo (popFront t)) (resetTaken e b s) = vectorLowFetched s := by
  have hlatch : settledData (resetTaken e b s) = busRead (lowStep s) Config.vectorLo :=
    settledData_afterReading
  rw [← suppliedCycle_of_bus, hlatch, suppliedCycle_eq]
  exact (settle_eq_afterReading rfl).trans (afterReading_afterReading _ _ _ _ _)

theorem busCycle_rvHi (s : State) :
    busCycle (fun t => runMicroOp .rvHi (popFront t)) (vectorLowFetched s) = vectorFetched s := by
  have hlatch : settledData (vectorLowFetched s) = busRead (lowStep s) Config.vectorHi :=
    settledData_afterReading
  rw [← suppliedCycle_of_bus, hlatch, suppliedCycle_eq, vectorFetched, vectorWord, ← setHigh_setLow s.reg.pc]
  exact (settle_eq_afterReading rfl).trans (afterReading_afterReading _ _ _ _ _)

theorem clockCycle_resetTaken (e : Bool) (b : Byte) (s : State) :
    clockCycle true (resetTaken e b s) = vectorLowFetched s :=
  (clockCycle_queued rfl).trans (busCycle_rvLo e b s)

theorem clockCycle_vectorLowFetched (s : State) : clockCycle true (vectorLowFetched s) = vectorFetched s :=
  (clockCycle_queued rfl).trans (busCycle_rvHi s)

/-- From any state an unrecognised opcode leads to the boundary after the vector fetch; the opcode has no part in it. -/
theorem exec_undef (op : Byte) (s : State) : exec (.undef op) s = .next (vectorFetched s) := by
  rw [exec, execUndef, suppliedCycle_decodeUndef, ← busCycle_rvHi, ← busCycle_rvLo true op]
  rfl

/-- Where the memory is selected, the bus brings the vector's bytes from it. -/
theorem vectorWord_eq {s : State} (hdone : WriteDone s) (hc : s.nodes.cs = true) :
    vectorWord s = wordOf (s.mem.read 0xFFFD) (s.mem.read 0xFFFC) := by
  simp only [vectorWord, busRead_lowStep, hc, if_true, read_settledMem_held hdone]
  rfl

/-- Settles O29: the state after the vector fetch, field by field. -/
theorem unrecognisedOpcodeResult : Obligations.UnrecognisedOpcodeResult := by
  intro op s hdone
  refine ⟨vectorFetched s, exec_undef op s, rfl, vectorWord_eq hdone, rfl, rfl, ?pins, rfl,
    read_settledMem_held hdone⟩
  case pins =>
    rw [show highByte (vectorFetched s).reg.pc = busRead (lowStep s) Config.vectorHi from highByte_wordOf _ _]
    rfl

/-- Settles O35: the fetched byte is decoded in the first cycle, and the two vector cycles follow. -/
theorem unrecognisedOpcodeCycles : Obligations.UnrecognisedOpcodeCycles := by
  intro s h hu c1 c2 c3
  have hdone := h.writeDone
  have ⟨_, hr, hc, _⟩ := h
  have cycle1 : c1 = resetTaken true (s.mem.read s.reg.pc.toNat) s := by
    have hdec : decodeOpcode (s.mem.read s.reg.pc.toNat) = decodeUndef := funext (decodeOpcode_unrecognised hu)
    rw [← suppliedCycle_decodeUndef, ← hdec]
    exact clockCycle_fetchesAtPc h rfl
  have cycle2 : c2 = vectorLowFetched s := by
    rw [← clockCycle_resetTaken, ← cycle1]
  have cycle3 : c3 = vectorFetched s := by
    rw [← clockCycle_vectorLowFetched, ← cycle2]
  have hstep : step s = .next (vectorFetched s) := by
    rw [step_fetchesAtPc h rfl, decodeThree_undef hu, exec_undef]
  have hnext : (clockCycle true (vectorFetched s)).pins.dataBus = s.mem.read (vectorWord s).toNat := by
    rw [clockCycle_boundary_latch rfl, ← busRead_lowStep_reading hr hc]
    exact settledData_afterReading
  rw [cycle1, cycle2, cycle3]
  exact ⟨rfl, rfl, rfl, rfl, rfl, rfl, rfl, rfl, rfl, busRead_lowStep_reading hr hc _, rfl, vectorWord_eq hdone hc,
    rfl, read_settledMem_held hdone, hstep, hnext⟩

/-! ### What the cause of a reset leaves no trace of (R171) -/

/-- Settles O52: `exec_undef` answers the same state for every opcode. -/
theorem nothingRecordsTheOpcode : Obligations.NothingRecordsTheOpcode := fun op op' s =>
  (exec_undef op s).trans (exec_undef op' s).symm

/-- Settles O53: both reset cycles end in a `resetTaken`, whose cause the vector fetch forgets. -/
theorem pinResetEqualsOpcodeReset : Obligations.PinResetEqualsOpcodeReset := by
  intro op s
  rw [exec_undef, clockCycle_pinReset, runCycles, runCycles, runCycles, clockCycle_resetTaken,
    clockCycle_vectorLowFetched]

/-! ### A vector that points at an unrecognised byte (R179) -/

/-- The vector fetch changes nothing that a later reset and vector fetch read. -/
theorem vectorFetched_vectorFetched (s : State) : vectorFetched (vectorFetched s) = vectorFetched s := by
  have hbus (a : Word) : busRead (lowStep (vectorFetched s)) a = busRead (lowStep s) a :=
    busRead_afterReading a
  rw [vectorFetched, vectorWord, hbus, hbus]
  exact afterReading_afterReading _ _ _ _ _

/-- Settles O54: the boundary after the vector fetch fetches at `pc`, and a second reset and vector fetch leads where
the first has led. -/
theorem vectorAtUnrecognisedByteLoops : Obligations.VectorAtUnrecognisedByteLoops := by
  intro op s t hexec hwave hc hu
  obtain rfl : vectorFetched s = t := Host.Outcome.next.inj ((exec_undef op s).symm.trans hexec)
  have hfetches : FetchesAtPc (vectorFetched s) := ⟨⟨hwave, rfl⟩, rfl, hc, rfl⟩
  rw [step_fetchesAtPc hfetches rfl, decodeThree_undef hu, exec_undef, vectorFetched_vectorFetched]

/-! ### Nothing stops the machine (R173) -/

/-- Settles O41: a step is a run of simulation steps, and the meaning of each instruction a run of clock cycles. -/
theorem everyStepAnswersNext : Obligations.EveryStepAnswersNext := by
  refine ⟨fun s => ⟨_, step_eq_runWave s⟩, fun i s => ?_⟩
  cases i <;> exact ⟨_, rfl⟩

end Sys2Proof.Machine
end

section
/-! PROOFS. Reset and hazards (70_reset_and_hazards.md): the clock cycles of one instruction, the reset sequence, the
vector fetch that forgets the old `pc`, a reset-enable that is never raised, the vector as ordinary memory, and a memory
that is not selected. -/

namespace Sys2Proof.Machine

/-! ### One instruction, counted in clock cycles (R216) -/

/-- Settles O38: a step at a boundary is the meaning of the fetched instruction, which is its clock cycles. -/
theorem stepFollowsTheBus : Obligations.StepFollowsTheBus := fun _ ⟨hwave, hqueue⟩ =>
  (step_boundary hwave hqueue).trans (exec_fetch_eq_runCycles hqueue)

/-! ### The reset sequence (R201) -/

/-- A read of a selected memory brings the byte there, also at the address of a held write that is done. -/
theorem busRead_lowStep_writeDone {s : State} (hdone : WriteDone s) (hc : s.nodes.cs = true) (a : Word) :
    busRead (lowStep s) a = s.mem.read a.toNat := by
  rw [busRead_lowStep, if_pos hc, read_settledMem_held hdone]

/-- Settles O21: the three cycles end in `resetTaken`, `vectorLowFetched` and `vectorFetched`, whose bus bytes come from
the memory. -/
theorem resetSequenceFetchesTheVector : Obligations.ResetSequenceFetchesTheVector := by
  intro s hc hdone c0 c1 c2
  have cycle0 : c0 = resetTaken false (settledData s) s := clockCycle_pinReset s
  have cycle1 : c1 = vectorLowFetched s := by rw [← clockCycle_resetTaken, ← cycle0]
  have cycle2 : c2 = vectorFetched s := by rw [← clockCycle_vectorLowFetched, ← cycle1]
  have hread := busRead_lowStep_writeDone hdone hc
  have hreg : (vectorFetched s).reg = resetRegs (wordOf (s.mem.read 0xFFFD) (s.mem.read 0xFFFC)) :=
    congrArg resetRegs (vectorWord_eq hdone hc)
  rw [cycle0, cycle1, cycle2]
  exact ⟨rfl, hread _, rfl, hread _, rfl, hreg, rfl, rfl, rfl, hread _, read_settledMem_held hdone⟩

/-! ### The vector fetch owed by a state, with any registers (R118, R119) -/

section
variable {s : State} {q : List MicroOp}

theorem clockCycle_rvLo (hq : s.queue = .rvLo :: q) :
    clockCycle true s = afterReading true (settledData s) Config.vectorHi
      { s.reg with pc := setLow s.reg.pc (settledData s) } q s := by
  obtain rfl : s.queue.tail = q := congrArg List.tail hq
  rw [clockCycle_queued_supplied hq rfl, suppliedCycle_eq]
  exact settle_eq_afterReading rfl

theorem clockCycle_rvHi (hq : s.queue = .rvHi :: q) :
    clockCycle true s = afterReading true (settledData s) (setHigh s.reg.pc (settledData s))
      { s.reg with pc := setHigh s.reg.pc (settledData s) } q s := by
  obtain rfl : s.queue.tail = q := congrArg List.tail hq
  rw [clockCycle_queued_supplied hq rfl, suppliedCycle_eq]
  exact settle_eq_afterReading rfl

end

/-- The state in which the vector fetch ends that `s` owes: `pc` is a word of two bytes from the bus. -/
def owedVectorFetched (s : State) : State :=
  let hi := busRead (lowStep s) Config.vectorHi
  let vector := wordOf hi (settledData s)
  afterReading true hi vector { s.reg with pc := vector } [] s

theorem drainQueue_vectorFetch {s : State} (hq : s.queue = [.rvLo, .rvHi]) :
    drainQueue s = owedVectorFetched s := by
  have hcycles : drainQueue s = clockCycle true (clockCycle true s) := by rw [drainQueue, hq]; rfl
  rw [hcycles, clockCycle_rvLo hq, clockCycle_rvHi rfl, settledData_afterReading, afterReading_afterReading]
  simp only [afterReading, setHigh_setLow, owedVectorFetched]

/-- What a read brings does not depend on the registers. -/
theorem busRead_lowStep_reg (s : State) (r : Regs) (a : Word) :
    busRead (lowStep { s with reg := r }) a = busRead (lowStep s) a := by
  rw [busRead_lowStep, busRead_lowStep]
  rfl

/-- Both lanes of `pc` come from the bus, so nothing of the old one is left. -/
theorem owedVectorFetched_pc (s : State) (p : Word) :
    owedVectorFetched { s with reg := { s.reg with pc := p } } = owedVectorFetched s := by
  simp only [owedVectorFetched, afterReading, busRead_lowStep_reg]
  rfl

/-- Settles O51: the step is the vector fetch, and the state in which it ends keeps nothing of the old `pc`. -/
theorem vectorFetchForgetsTheOldPc : Obligations.VectorFetchForgetsTheOldPc := by
  intro s p hwave hq
  have hstep {u : State} (hw : u.wave = []) (hu : u.queue = [.rvLo, .rvHi]) :
      step u = .next (owedVectorFetched u) := by
    rw [step_owed hw (by simp [hu]), drainQueue_vectorFetch hu]
  rw [hstep hwave hq, hstep (u := { s with reg := { s.reg with pc := p } }) hwave hq, owedVectorFetched_pc]

/-! ### Reset-enable never raised (R200) -/

/-- The machine is as a reset leaves it, with `image` in the memory: registers at their reset values, pin at "read". -/
structure InReset (image : Memory) (s : State) : Prop where
  reg : s.reg = resetRegs s.reg.pc
  mem : s.mem = image
  reading : s.pins.rwb = true

/-- The next thing that the engine wants is the low byte of the reset vector. -/
def AwaitsVector (s : State) : Prop := s.queue = [.rvLo, .rvHi] ∧ s.pins.addressBus = Config.vectorLo

theorem inReset_powerOn (image : Memory) (wave : List Levels) : InReset image (State.powerOn image wave) :=
  ⟨rfl, rfl, rfl⟩

theorem InReset.settle {image : Memory} {s : State} (h : InReset image s) : InReset image (settle s) where
  reg := h.reg
  mem := by rw [settle_mem, settledMem_reading h.reading, h.mem]
  reading := h.reading

theorem risingEdges_cons_pos_iff (c : Bool) (lv : Levels) (ls : List Levels) :
    0 < risingEdges c (lv :: ls) ↔ (c = false ∧ lv.clock = true) ∨ 0 < risingEdges lv.clock ls := by
  rw [Nat.pos_iff_ne_zero, Ne, risingEdges_cons_eq_zero_iff, Nat.pos_iff_ne_zero, not_and_or, not_not]

section
variable {image : Memory} {s : State} (h : InReset image s)
include h

/-- With reset-enable false, a rising edge is a reset cycle, and any other sample leaves the processor as it is. -/
theorem simStep_inReset {lv : Levels} (hlv : lv.resetEn = false) :
    InReset image (simStep lv s) ∧
      ((s.pins.clock = false ∧ lv.clock = true) ∨ AwaitsVector s → AwaitsVector (simStep lv s)) := by
  rw [simStep, simStepWith_eq]
  by_cases hrising : s.pins.clock = false ∧ lv.clock = true
  · obtain ⟨hlow, hhigh⟩ := hrising
    have hreset : (clockHigh s lv.resetEn).pins.resetEn = false := hlv
    rw [processorEdge_of_rising engineCycle hlow hhigh, engineCycle_reset hreset]
    exact ⟨InReset.settle ⟨rfl, h.mem, rfl⟩, fun _ => ⟨rfl, rfl⟩⟩
  · rw [processorEdge_of_not_rising engineCycle hrising]
    exact ⟨InReset.settle ⟨h.reg, h.mem, h.reading⟩, fun hvec => hvec.resolve_left hrising⟩

/-- From the first rising edge on the vector is awaited, for as long as reset-enable stays false. -/
theorem runWave_inReset {levels : List Levels} (hlevels : ∀ lv ∈ levels, lv.resetEn = false) :
    InReset image (runWave levels s) ∧
      (0 < risingEdges s.pins.clock levels ∨ AwaitsVector s → AwaitsVector (runWave levels s)) := by
  induction levels generalizing s with
  | nil => exact ⟨h, fun hvec => hvec.resolve_left (Nat.lt_irrefl 0)⟩
  | cons lv rest ih =>
    obtain ⟨hlv, hrest⟩ := List.forall_mem_cons.mp hlevels
    obtain ⟨hfirst, hfirstVec⟩ := simStep_inReset h hlv
    obtain ⟨hlast, hlastVec⟩ := ih hfirst hrest
    refine ⟨hlast, fun hvec => hlastVec ?_⟩
    rw [simStep_clock]
    rcases hvec with hedges | hawaits
    · rcases (risingEdges_cons_pos_iff s.pins.clock lv rest).mp hedges with hrising | hlater
      · exact .inr (hfirstVec (.inl hrising))
      · exact .inl hlater
    · exact .inr (hfirstVec (.inr hawaits))

end

/-- Settles O22, by induction on the levels: power-on is a state in reset, and every level pair keeps it there. -/
theorem resetHeldLowNeverEnds : Obligations.ResetHeldLowNeverEnds := by
  intro image w levels hlevels t
  obtain ⟨held, hvec⟩ := runWave_inReset (inReset_powerOn image w) hlevels
  have hreg : t.reg = resetRegs t.reg.pc := held.reg
  rw [hreg]
  exact ⟨rfl, rfl, rfl, rfl, rfl, held.mem, held.reading, fun hedge => hvec (.inl hedge)⟩

/-! ### The vector is ordinary memory (R213) -/

/-- The write cycle that the store leaves held has reached the memory. -/
theorem WritesTo.writeDone {addr p : Word} {q : List MicroOp} {s t : State} (h : WritesTo addr p q s t) :
    WriteDone t := fun _ hc => by
  rw [h.shows, h.latch, h.read_addr (h.cs.symm.trans hc)]

/-- After a store, an unrecognised opcode goes to the word that the memory then has at the vector. -/
theorem WritesTo.vector {addr p : Word} {q : List MicroOp} {s t u : State} {op : Byte} (h : WritesTo addr p q s t)
    (hc : s.nodes.cs = true) (hexec : exec (.undef op) t = .next u) :
    u.reg.pc = wordOf (t.mem.read 0xFFFD) (t.mem.read 0xFFFC) := by
  obtain rfl : vectorFetched t = u := Host.Outcome.next.inj ((exec_undef op t).symm.trans hexec)
  exact vectorWord_eq h.writeDone (h.cs.trans hc)

/-- Settles O56: of the two vector bytes the store has replaced the one at its address and kept the other. -/
theorem storeRedirectsTheVector : Obligations.StoreRedirectsTheVector := by
  intro op s t u hdone hc hundef
  refine ⟨fun hstore => ?low, fun hstore => ?high⟩
  all_goals
    have run := writesTo_of_exec_staAbs hstore
    rw [run.vector hc hundef]
  case low => exact congrArg₂ wordOf (run.read_other hdone (by decide)) (run.read_addr hc)
  case high => exact congrArg₂ wordOf (run.read_addr hc) (run.read_other hdone (by decide))

/-! ### A memory that is not selected (R212) -/

theorem settledMem_unselected {s : State} (hc : s.nodes.cs = false) : settledMem s = s.mem := by
  simp [settledMem, hc]

/-- From a memory that is not selected, every read brings the byte that is already on the bus. -/
theorem busRead_lowStep_unselected {s : State} (hc : s.nodes.cs = false) (hr : s.pins.rwb = true) (a : Word) :
    busRead (lowStep s) a = s.nodes.data := by
  simp [busRead_lowStep, settledData, hc, hr]

/-- No simulation step changes the array of a memory that is not selected, or selects it. -/
theorem simStep_unselected {m : Memory} (lv : Levels) (s : State) (h : s.nodes.cs = false ∧ s.mem = m) :
    (simStep lv s).nodes.cs = false ∧ (simStep lv s).mem = m := by
  have settled {u : State} (hu : u.nodes.cs = false ∧ u.mem = m) :
      (settle u).nodes.cs = false ∧ (settle u).mem = m := by
    obtain ⟨hc, hm⟩ := hu
    rw [settle_nodes_cs, settle_mem, settledMem_unselected hc]
    exact ⟨hc, hm⟩
  rcases simStep_cases lv s with hs | hs | hs <;> rw [hs] <;> apply settled
  · exact h
  · exact h
  · rw [engineCycle_nodes, engineCycle_mem]
    exact h

/-- Settles O57: no simulation step acts on the memory, and at a reading boundary every byte of the reset and of the
vector fetch is the 0x00 on the bus. -/
theorem unselectedMemoryNeverActs : Obligations.UnselectedMemoryNeverActs := by
  intro s t hc hstep
  obtain ⟨hcs, hmem⟩ := step_keeps (P := fun u => u.nodes.cs = false ∧ u.mem = s.mem) (fun _ _ h => h)
    simStep_unselected ⟨hc, rfl⟩ hstep
  refine ⟨hmem, hcs, fun ⟨hwave, hqueue⟩ hr hdata => ?_⟩
  have hlatch : settledData s = 0x00#8 := by simp [settledData, hr, hc, hdata]
  have hfetch : fetch s = .undef 0x00#8 := by rw [fetch_eq, hlatch, decodeThree_undef rfl]
  rw [step_boundary hwave hqueue, hfetch, exec_undef] at hstep
  cases hstep
  exact ⟨hfetch, rfl, rfl, (busRead_lowStep_unselected hc hr _).trans hdata⟩

end Sys2Proof.Machine
end

section
/-! PROOFS. The reset cycle from default power-on (10_state.md, section on reset; 92_eei_decisions.md D2). -/

namespace Sys2Proof.Machine

/-- Settles O23: power-on reads a selected memory, so the latch and the bus get bytes of the image, here unlisted ones. -/
theorem resetStateIsOneCycleFromPowerOn : Obligations.ResetStateIsOneCycleFromPowerOn := by
  have hlatch : settledData (State.powerOn [] []) = Config.unlistedByte :=
    (settledData_reading rfl rfl).trans (Memory.read_nil _)
  have hbus : busRead (lowStep (State.powerOn [] [])) Config.vectorLo = Config.unlistedByte :=
    (busRead_lowStep_reading rfl rfl _).trans (Memory.read_nil _)
  have hmem : settledMem (State.powerOn [] []) = [] := settledMem_reading rfl
  rw [Obligations.ResetStateIsOneCycleFromPowerOn, clockCycle_pinReset, hlatch, resetTaken, afterReading, hbus, hmem]
  rfl

end Sys2Proof.Machine
end
